-- ==== Sys2Proof/Word.lean ====
section
/-! DEFINITION. The word types of the driver block and the plain names its spec uses for levels and
palette colours (00_scope rules R10, R13; 40_palette rule R110). -/

namespace Sys2Proof

/-- One byte of the framebuffer or of the wire. -/
abbrev Byte := BitVec 8

/-- A host command word (30_encoding rule R81). -/
abbrev Hcw := BitVec 64

/-- A response word (30_encoding rule R84). -/
abbrev Rsp := BitVec 32

/-- A 4-bit palette code as it stands in a command word, a response or a framebuffer nibble
(30_encoding rule R86). -/
abbrev Code := BitVec 4

/-- A packed colour, red in bits 23:16, green in 15:8, blue in 7:0 (30_encoding rule R81). -/
abbrev Rgb24 := BitVec 24

/-- A pixel coordinate or a dither row width, unsigned (92_eei_decisions D13). -/
abbrev Coord := BitVec 16

/-- The opaque payload of a capability fault, "propagated, not interpreted" (10_state rule R28).
DESIGN CHOICE (log entry 9): a natural number used as a token; nothing computes with it. -/
abbrev Payload := Nat

/-- The level of a pin or line (00_scope rule R13). -/
inductive Level where
  | low
  | high
  deriving DecidableEq, Repr, Inhabited

/-- The seven palette colours in declaration order (40_palette rule R110). -/
inductive PaletteColor where
  | black
  | white
  | green
  | blue
  | red
  | yellow
  | orange
  deriving DecidableEq, Repr, Inhabited

/-- A colour channel: 0 red, 1 green, 2 blue (00_scope rule R12). -/
inductive Channel where
  | red
  | green
  | blue
  deriving DecidableEq, Repr, Inhabited

end Sys2Proof
end

