-- ==== Sys2Proof/Config.lean ====
section
/-! DEFINITION. What the spec leaves to the configuration or to nobody: the open parameters of
00_scope rule R9 as one plain record, the environment's answer to a capability action, and the free
values, which have no body. -/

namespace Sys2Proof

/-- A representative colour, three unsigned channels (10_state rule R32). -/
structure Rgb where
  r : Byte
  g : Byte
  b : Byte
  deriving DecidableEq, Repr

/-- `PALETTE_RGB`, one triple for each palette colour (40_palette rule R111). -/
structure Palette where
  black : Rgb
  white : Rgb
  green : Rgb
  blue : Rgb
  red : Rgb
  yellow : Rgb
  orange : Rgb
  deriving DecidableEq, Repr

/-- `NIBBLE_ORDER` (20_memory rule R52). -/
inductive NibbleOrder where
  | evenHigh
  | evenLow
  deriving DecidableEq, Repr

/-- The parameters the spec leaves open (00_scope rule R9, 92_eei_decisions). The model takes them
as an argument: they stand in `State.cfg`, no step writes them, and a statement about every state is
a statement about every configuration (log entry 3). -/
structure Config where
  /-- `PALETTE_RGB`, 92_eei_decisions D3. -/
  palette : Palette
  /-- `NIBBLE_ORDER`, D4. -/
  nibbleOrder : NibbleOrder
  /-- `BUSY_IDLE_LEVEL`, D6. -/
  busyIdle : Level
  /-- `BUSY_POLL_LIMIT`, D34. -/
  pollLimit : Option Nat
  /-- Whether item 3 of `WAKE_CFG`, opcode 0x03, is present, D8. -/
  powerOffSeqPresent : Bool
  /-- Data of opcode 0x00, D7. -/
  panelSetData : List Byte
  /-- Data of opcode 0x01, D7. -/
  powerSetData : List Byte
  /-- Data of opcode 0x03, D8. -/
  powerOffSeqData : List Byte
  /-- Data of opcode 0x06, D7. -/
  boosterData : List Byte
  /-- Data of opcode 0x41, D7. -/
  tempSensorData : List Byte
  /-- Data of opcode 0x50, D7. -/
  vcomData : List Byte
  deriving DecidableEq, Repr

/-- The environment's answer to one capability action (00_scope rules R5, R13). `success busy`: the
action succeeded, and if it was a `BusyRead` the line was at level `busy`. `fault info delivered`: it
failed with payload `info`, and if it was a `WireWrite` then `delivered` bytes of it, at most all,
had reached the panel (43_protocol_primitives rule R162). -/
inductive Answer where
  | success (busy : Level)
  | fault (info : Payload) (delivered : Nat)
  deriving DecidableEq, Repr, Inhabited

/-- FREE VALUE (log entry 2): the answer the environment gives to draw number `n` when `State.answers`
lists none. Nothing constrains it. -/
opaque Config.freeAnswer : Nat → Answer

/-- FREE VALUE (log entry 7): what `r_color` holds after a response that does not write it. -/
opaque Config.freeColor : Nat → Code

/-- FREE VALUE (log entry 7): what `r_rgb` holds after a response that does not write it. -/
opaque Config.freeRgb : Nat → Rgb24

/-- FREE VALUE (log entry 7): what `r_info` holds after a response that does not write it. -/
opaque Config.freeInfo : Nat → Payload

end Sys2Proof
end

