-- ==== Sys2Proof/Syntax.lean ====
section
/-! DEFINITION. The instructions: the eleven host operations of format H (30_encoding rule R82) and
the thirteen panel commands of format W (30_encoding rule R90), one constructor per row of
spec/opcode_table.json. -/

namespace Sys2Proof

/-- The name of a host operation, what `run = Busy(op, pc)` remembers (10_state rule R26). -/
inductive HostOp where
  | new
  | setPixel
  | setPixelRgb
  | getPixel
  | clear
  | init
  | display
  | nearest
  | toRgb
  | ditherNew
  | ditherNext
  deriving DecidableEq, Repr

/-- The name of a panel command (30_encoding rule R90). -/
inductive PanelCmd where
  | panelSet
  | powerSet
  | powerOffSeqSet
  | powerOff
  | boosterSoftstart
  | deepSleep
  | dataStart
  | displayRefresh
  | tempSensorEn
  | vcomDataInterval
  | vendor60
  | resolutionSet
  | vendorTuningE3
  deriving DecidableEq, Repr

/-- An instruction. A host operation carries the fields of the command word that rule R82 says it
reads; a panel command carries nothing, its data are fixed by the step lists (30_encoding rule R85). -/
inductive Instr where
  | new
  | setPixel (x y : Coord) (color : Code)
  | setPixelRgb (x y : Coord) (rgb : Rgb24)
  | getPixel (x y : Coord)
  | clear
  | init
  | display
  | nearest (rgb : Rgb24)
  | toRgb (color : Code)
  | ditherNew (w : Coord)
  | ditherNext (rgb : Rgb24)
  | panelSet
  | powerSet
  | powerOffSeqSet
  | powerOff
  | boosterSoftstart
  | deepSleep
  | dataStart
  | displayRefresh
  | tempSensorEn
  | vcomDataInterval
  | vendor60
  | resolutionSet
  | vendorTuningE3
  deriving DecidableEq, Repr

end Sys2Proof
end

