-- ==== Sys2Proof/WellFormed.lean ====
section
/-! DEFINITION. Which instructions the spec gives a meaning as syntax: a `color` operand is a palette
code (30_encoding rule R91) and a dither row width is 1 to 600 (41_dither rule R121). -/

namespace Sys2Proof

/-- The operand checks that do not depend on the state. -/
def Instr.wellFormed : Instr → Bool
  | .new => true
  | .setPixel _ _ color => decide (color.toNat ≤ 6)
  | .setPixelRgb _ _ _ => true
  | .getPixel _ _ => true
  | .clear => true
  | .init => true
  | .display => true
  | .nearest _ => true
  | .toRgb color => decide (color.toNat ≤ 6)
  | .ditherNew w => decide (1 ≤ w.toNat ∧ w.toNat ≤ 600)
  | .ditherNext _ => true
  | .panelSet => true
  | .powerSet => true
  | .powerOffSeqSet => true
  | .powerOff => true
  | .boosterSoftstart => true
  | .deepSleep => true
  | .dataStart => true
  | .displayRefresh => true
  | .tempSensorEn => true
  | .vcomDataInterval => true
  | .vendor60 => true
  | .resolutionSet => true
  | .vendorTuningE3 => true

end Sys2Proof
end

