-- ==== Sys2Proof/Decode.lean ====
section
/-! DEFINITION. The decoder of host command words (30_encoding rules R81, R82, R91) and of panel
opcode bytes (rules R85, R90), both total and rejecting by name, and after them the encoder written
from the same tables. -/

namespace Sys2Proof

/-- Why a word or byte names no instruction. -/
inductive DecodeError where
  /-- `op` 0x7 or 0xC to 0xF (rule R91). -/
  | undefinedOp (code : BitVec 4)
  /-- A byte that is none of the 13 opcodes the block sends (rules R90, R92). -/
  | undefinedOpcode (b : Byte)
  deriving DecidableEq, Repr

/-- Either family's encoded form: a 64-bit host command word, or an opcode byte as it goes over the
wire (rule R80). -/
inductive Encoded where
  | host (w : Hcw)
  | wire (b : Byte)
  deriving DecidableEq, Repr

/-- Bits 63:60 of a host command word. -/
def Hcw.opField (w : Hcw) : BitVec 4 := w.extractLsb' 60 4

/-- Bits 59:44: `x`, and for DITHER_NEW the row width `w`. -/
def Hcw.xField (w : Hcw) : Coord := w.extractLsb' 44 16

/-- Bits 43:28. -/
def Hcw.yField (w : Hcw) : Coord := w.extractLsb' 28 16

/-- Bits 27:24. -/
def Hcw.colorField (w : Hcw) : Code := w.extractLsb' 24 4

/-- Bits 23:0. -/
def Hcw.rgbField (w : Hcw) : Rgb24 := w.extractLsb' 0 24

/-- The `op` values of rule R82. -/
def HostOp.code : HostOp → BitVec 4
  | .new => 0x0
  | .setPixel => 0x1
  | .setPixelRgb => 0x2
  | .getPixel => 0x3
  | .clear => 0x4
  | .init => 0x5
  | .display => 0x6
  | .nearest => 0x8
  | .toRgb => 0x9
  | .ditherNew => 0xA
  | .ditherNext => 0xB

/-- The operation an `op` value names; 0x7 and 0xC to 0xF name none (rules R82, R91). -/
def HostOp.ofCode (c : BitVec 4) : Option HostOp :=
  match c.toNat with
  | 0x0 => some .new
  | 0x1 => some .setPixel
  | 0x2 => some .setPixelRgb
  | 0x3 => some .getPixel
  | 0x4 => some .clear
  | 0x5 => some .init
  | 0x6 => some .display
  | 0x8 => some .nearest
  | 0x9 => some .toRgb
  | 0xA => some .ditherNew
  | 0xB => some .ditherNext
  | _ => none

/-- The instruction an operation stands for with the given operand fields; a field the operation
does not name is ignored (rule R81). -/
def HostOp.instr (op : HostOp) (x y : Coord) (color : Code) (rgb : Rgb24) (w : Coord) : Instr :=
  match op with
  | .new => .new
  | .setPixel => .setPixel x y color
  | .setPixelRgb => .setPixelRgb x y rgb
  | .getPixel => .getPixel x y
  | .clear => .clear
  | .init => .init
  | .display => .display
  | .nearest => .nearest rgb
  | .toRgb => .toRgb color
  | .ditherNew => .ditherNew w
  | .ditherNext => .ditherNext rgb

/-- The operation an instruction is, where it is a host operation. -/
def hostOpOf : Instr → Option HostOp
  | .new => some .new
  | .setPixel _ _ _ => some .setPixel
  | .setPixelRgb _ _ _ => some .setPixelRgb
  | .getPixel _ _ => some .getPixel
  | .clear => some .clear
  | .init => some .init
  | .display => some .display
  | .nearest _ => some .nearest
  | .toRgb _ => some .toRgb
  | .ditherNew _ => some .ditherNew
  | .ditherNext _ => some .ditherNext
  | .panelSet => none
  | .powerSet => none
  | .powerOffSeqSet => none
  | .powerOff => none
  | .boosterSoftstart => none
  | .deepSleep => none
  | .dataStart => none
  | .displayRefresh => none
  | .tempSensorEn => none
  | .vcomDataInterval => none
  | .vendor60 => none
  | .resolutionSet => none
  | .vendorTuningE3 => none

/-- Decodes a host command word. -/
def decodeHost (w : Hcw) : Except DecodeError Instr :=
  match HostOp.ofCode w.opField with
  | some op => .ok (op.instr w.xField w.yField w.colorField w.rgbField w.xField)
  | none => .error (.undefinedOp w.opField)

/-- The opcode bytes of rule R90. -/
def PanelCmd.opcode : PanelCmd → Byte
  | .panelSet => 0x00
  | .powerSet => 0x01
  | .powerOffSeqSet => 0x03
  | .powerOff => 0x04
  | .boosterSoftstart => 0x06
  | .deepSleep => 0x07
  | .dataStart => 0x10
  | .displayRefresh => 0x12
  | .tempSensorEn => 0x41
  | .vcomDataInterval => 0x50
  | .vendor60 => 0x60
  | .resolutionSet => 0x61
  | .vendorTuningE3 => 0xE3

/-- The panel command an opcode byte names (rule R90). -/
def PanelCmd.ofOpcode (b : Byte) : Option PanelCmd :=
  match b.toNat with
  | 0x00 => some .panelSet
  | 0x01 => some .powerSet
  | 0x03 => some .powerOffSeqSet
  | 0x04 => some .powerOff
  | 0x06 => some .boosterSoftstart
  | 0x07 => some .deepSleep
  | 0x10 => some .dataStart
  | 0x12 => some .displayRefresh
  | 0x41 => some .tempSensorEn
  | 0x50 => some .vcomDataInterval
  | 0x60 => some .vendor60
  | 0x61 => some .resolutionSet
  | 0xE3 => some .vendorTuningE3
  | _ => none

/-- The instruction a panel command stands for. -/
def PanelCmd.instr : PanelCmd → Instr
  | .panelSet => .panelSet
  | .powerSet => .powerSet
  | .powerOffSeqSet => .powerOffSeqSet
  | .powerOff => .powerOff
  | .boosterSoftstart => .boosterSoftstart
  | .deepSleep => .deepSleep
  | .dataStart => .dataStart
  | .displayRefresh => .displayRefresh
  | .tempSensorEn => .tempSensorEn
  | .vcomDataInterval => .vcomDataInterval
  | .vendor60 => .vendor60
  | .resolutionSet => .resolutionSet
  | .vendorTuningE3 => .vendorTuningE3

/-- Decodes an opcode byte: all 8 bits are opcode (rule R85). -/
def decodeWire (b : Byte) : Except DecodeError Instr :=
  match PanelCmd.ofOpcode b with
  | some c => .ok c.instr
  | none => .error (.undefinedOpcode b)

/-- Decodes either family. -/
def decode : Encoded → Except DecodeError Instr
  | .host w => decodeHost w
  | .wire b => decodeWire b

/-- The instruction the decoder reads from `nbits` bits numbered as spec/opcode_table.json numbers
them: 64 bits are a host command word, 8 bits an opcode byte, and there are no other widths. -/
def decodeTableWord (nbits w : Nat) : Option Instr :=
  match nbits with
  | 64 => (decodeHost (BitVec.ofNat 64 w)).toOption
  | 8 => (decodeWire (BitVec.ofNat 8 w)).toOption
  | _ => none

/-- Assembles a host command word from its five fields (rule R81). -/
def Hcw.assemble (op : BitVec 4) (x y : Coord) (color : Code) (rgb : Rgb24) : Hcw :=
  op ++ x ++ y ++ color ++ rgb

/-- The encoding of an instruction. The fields an operation does not name are written as 0. -/
def encode : Instr → Encoded
  | .new => .host (Hcw.assemble (HostOp.code .new) 0 0 0 0)
  | .setPixel x y color => .host (Hcw.assemble (HostOp.code .setPixel) x y color 0)
  | .setPixelRgb x y rgb => .host (Hcw.assemble (HostOp.code .setPixelRgb) x y 0 rgb)
  | .getPixel x y => .host (Hcw.assemble (HostOp.code .getPixel) x y 0 0)
  | .clear => .host (Hcw.assemble (HostOp.code .clear) 0 0 0 0)
  | .init => .host (Hcw.assemble (HostOp.code .init) 0 0 0 0)
  | .display => .host (Hcw.assemble (HostOp.code .display) 0 0 0 0)
  | .nearest rgb => .host (Hcw.assemble (HostOp.code .nearest) 0 0 0 rgb)
  | .toRgb color => .host (Hcw.assemble (HostOp.code .toRgb) 0 0 color 0)
  | .ditherNew w => .host (Hcw.assemble (HostOp.code .ditherNew) w 0 0 0)
  | .ditherNext rgb => .host (Hcw.assemble (HostOp.code .ditherNext) 0 0 0 rgb)
  | .panelSet => .wire (PanelCmd.opcode .panelSet)
  | .powerSet => .wire (PanelCmd.opcode .powerSet)
  | .powerOffSeqSet => .wire (PanelCmd.opcode .powerOffSeqSet)
  | .powerOff => .wire (PanelCmd.opcode .powerOff)
  | .boosterSoftstart => .wire (PanelCmd.opcode .boosterSoftstart)
  | .deepSleep => .wire (PanelCmd.opcode .deepSleep)
  | .dataStart => .wire (PanelCmd.opcode .dataStart)
  | .displayRefresh => .wire (PanelCmd.opcode .displayRefresh)
  | .tempSensorEn => .wire (PanelCmd.opcode .tempSensorEn)
  | .vcomDataInterval => .wire (PanelCmd.opcode .vcomDataInterval)
  | .vendor60 => .wire (PanelCmd.opcode .vendor60)
  | .resolutionSet => .wire (PanelCmd.opcode .resolutionSet)
  | .vendorTuningE3 => .wire (PanelCmd.opcode .vendorTuningE3)

end Sys2Proof
end

