-- ==== Sys2Proof/Machine/Parameters.lean ====
section
/-! DEFINITION. The parameters the spec fixes (00_scope rule R8) and the values it takes for the ones
it leaves open (00_scope rule R9; 40_palette rule R111; 44_protocol_sequences rule R182). -/

namespace Sys2Proof.Machine

/-- `WIDTH`, pixels per row. -/
def panelWidth : Nat := 600

/-- `HEIGHT`, rows. -/
def panelHeight : Nat := 448

/-- `FB_BYTES`, two pixels to a byte. -/
def fbBytes : Nat := 134400

/-- `ROW_BYTES`. -/
def rowBytes : Nat := 300

/-- `BLANK_BYTE`: WHITE in both nibbles (42_framebuffer rule R140). -/
def blankByte : Byte := 0x11

/-- `N_COLORS`, palette entries (the length of `allColors`, Laws/Operands.lean). -/
def nColors : Nat := 7

/-- `KERNEL`, the diffusion weights, one list per row; its non-zero entries are `kernelTargets`
(Laws/Dither.lean). -/
def kernel : List (List Int) := [[0, 0, 7], [3, 5, 1]]

/-- `KERNEL_HEIGHT`, rows of error history kept: the two row parities (Laws/Dither.lean). -/
def kernelHeight : Nat := 2

/-- `KERNEL_DIV`. -/
def kernelDiv : Int := 16

/-- `DITHER_W_MAX` (92_eei_decisions D19). -/
def ditherWidthMax : Nat := 600

/-- `T_RESET_LOW_MS`. -/
def resetLowMs : Nat := 1

/-- `T_RESET_BOOT_MS`. -/
def resetBootMs : Nat := 200

/-- `T_CFG_SETTLE_MS`. -/
def cfgSettleMs : Nat := 100

/-- `T_PRE_SLEEP_MS`. -/
def preSleepMs : Nat := 10

/-- `T_POST_SLEEP_MS`. -/
def postSleepMs : Nat := 100

/-- `T_REFRESH_SETTLE_MS`. -/
def refreshSettleMs : Nat := 200

/-- `SLEEP_MAGIC`, the data byte of DEEP_SLEEP. -/
def sleepMagic : Byte := 0xA5

/-- `RES_BYTES`: 600 and 448, each high byte first (30_encoding rule R88). -/
def resBytes : List Byte := [0x02, 0x58, 0x01, 0xC0]

/-- `VENDOR60_DATA`. -/
def vendor60Data : Byte := 0x20

/-- `TUNING_E3_DATA`. -/
def tuningE3Data : Byte := 0xAA

/-- `SPI_MODE`: clock polarity 0, clock phase 0. It is a matter of the wire below `WireWrite`, which
00_scope rule R7 (a) leaves out, so no operation reads it (log entry 16). -/
def spiMode : Nat := 0

/-- The default `PALETTE_RGB` (40_palette rule R111). -/
def takenPalette : Palette where
  black := ⟨0, 0, 0⟩
  white := ⟨255, 255, 255⟩
  green := ⟨0, 255, 0⟩
  blue := ⟨0, 0, 255⟩
  red := ⟨255, 0, 0⟩
  yellow := ⟨255, 255, 0⟩
  orange := ⟨255, 128, 0⟩

/-- The values this spec takes for the open parameters (00_scope rule R9, "taken";
44_protocol_sequences rule R182, "default"). -/
def takenConfig : Config where
  palette := takenPalette
  nibbleOrder := .evenHigh
  busyIdle := .high
  pollLimit := none
  powerOffSeqPresent := true
  panelSetData := [0xEF, 0x08]
  powerSetData := [0x37, 0x00, 0x23, 0x23]
  powerOffSeqData := [0x00]
  boosterData := [0xC7, 0xC7, 0x1D]
  tempSensorData := [0x00]
  vcomData := [0x37]

end Sys2Proof.Machine
end

