-- ==== Sys2Proof/Machine/State.lean ====
section
/-! DEFINITION. The state of the block as plain data (10_state), the inputs it consumes, the record of
its trace, why a step can stop, and the machine right after reset (10_state rule R40). -/

namespace Sys2Proof.Machine

/-- `sess`, the panel session state (10_state rule R22). -/
inductive Session where
  | unknown
  | awake
  | asleep
  deriving DecidableEq, Repr

/-- `run`, the sequencer position (10_state rule R26). -/
inductive Run where
  | idle
  | busy (op : HostOp) (pc : Nat)
  deriving DecidableEq, Repr

/-- The kinds `r_status` can hold; codes 7 to 15 are never produced (30_encoding rule R83). -/
inductive Status where
  | ok
  | resetPinFault
  | dataCommandPinFault
  | busyPinFault
  | wireFault
  | pixelOutOfBounds
  | panelTimeout
  deriving DecidableEq, Repr

/-- The operand latches (10_state rule R20). -/
structure Latches where
  op : BitVec 4
  x : Coord
  y : Coord
  color : Code
  rgb : Rgb24
  w : Coord
  deriving DecidableEq, Repr

/-- The response (10_state rule R28). `valid` says that no operation has been accepted since it was
written (log entry 17). -/
structure Response where
  valid : Bool
  status : Status
  color : Code
  rgb : Rgb24
  info : Payload
  deriving DecidableEq, Repr

/-- The dither state (10_state rules R29, R30). `err` lists the cells that are not 0, by increasing key
(the key of a cell is `errKey` of Machine/Operands.lean). -/
structure Dither where
  valid : Bool
  w : Coord
  col : Coord
  par : BitVec 1
  err : List (Nat × Int)
  deriving DecidableEq, Repr

/-- How the environment answered a pin action. -/
inductive PinReply where
  | ok
  | fault (info : Payload)
  deriving DecidableEq, Repr

/-- How the environment answered a wire write; after a fault, `sent` is the prefix of the bytes that
had reached the panel (43_protocol_primitives rule R162). -/
inductive WireReply where
  | ok
  | fault (info : Payload) (sent : List Byte)
  deriving DecidableEq, Repr

/-- How the environment answered a sample of the busy line. -/
inductive BusyReply where
  | level (l : Level)
  | fault (info : Payload)
  deriving DecidableEq, Repr

/-- One event of the trace: a capability action, its arguments and its answer (00_scope rule R15). -/
inductive Event where
  | rstSet (l : Level) (reply : PinReply)
  | dcSet (l : Level) (reply : PinReply)
  | wireWrite (bytes : List Byte) (reply : WireReply)
  | busyRead (reply : BusyReply)
  | delayMs (n : Nat)
  deriving DecidableEq, Repr

/-- The machine: the elements of 10_state, then the configuration, the inputs and the trace. -/
structure State where
  /-- The operand latches, rule R20. -/
  latches : Latches
  /-- The framebuffer, rule R21: the bytes that differ from `blankByte`, by increasing index. -/
  fb : List Host.Cell
  /-- `sess`, rule R22. -/
  sess : Session
  /-- `rst_out`, rule R23; `none` is the spec's own value. -/
  rstOut : Option Level
  /-- `dc_out`, rule R24; `none` is the spec's own value. -/
  dcOut : Option Level
  /-- `run`, rule R26. -/
  run : Run
  /-- `polls`, rule R27. -/
  polls : Nat
  /-- The response, rule R28. -/
  resp : Response
  /-- The dither state, rules R29 and R30. -/
  dither : Dither
  /-- The configuration; no step writes it (log entry 3). -/
  cfg : Config
  /-- INPUT: the command words the host has yet to present, first one next (log entry 1). -/
  host : List Hcw
  /-- INPUT: the answers the environment gives next (log entry 2). -/
  answers : List Answer
  /-- INPUT: the hardware reset of the block is asserted (70_reset_and_hazards rule R270, log entry 18). -/
  hwReset : Bool
  /-- The MODEL'S counter that indexes the free values of Config (log entries 2 and 7). -/
  draws : Nat
  /-- The events so far, oldest first; read by no step (log entry 8). -/
  trace : List Event
  deriving DecidableEq, Repr

/-- Why the machine stops. -/
inductive Fault where
  /-- Raised by a panel operation's or a panel command's meaning when `run` stands at a position that
  its step list does not have (10_state rule R26 bounds `pc` by the list's length). Safe: no run from
  reset gets there, and the spec gives no step from there (log entry 14). -/
  | pastStepList
  deriving DecidableEq, Repr

/-- Why an input has no step: what the spec calls `refuse` (00_scope rule R14). -/
inductive Refusal where
  /-- The instruction of this mnemonic has no meaning in the model yet. Raised by `exec` alone. Safe. -/
  | notModelled (mnemonic : String)
  /-- The host presents a word whose `op` is 0x7 or 0xC to 0xF (30_encoding rule R91). Raised by
  acceptance. Safe. -/
  | undefinedOp (code : BitVec 4)
  /-- A byte of a step list that names no panel command (30_encoding rule R92). Raised by `step`; no
  step list holds one. Safe. -/
  | undefinedOpcode (b : Byte)
  /-- SET_PIXEL or TO_RGB with a `color` of 0x7 to 0xF (30_encoding rule R91). Raised by acceptance
  and by the two meanings. Safe. -/
  | illegalColor (color : Code)
  /-- DITHER_NEW with a width of 0 or above 600 (41_dither rule R121). Raised by acceptance and by the
  meaning. Safe. -/
  | badRowWidth (w : Coord)
  /-- DITHER_NEXT while `d_valid` is false (41_dither rule R122). Raised by acceptance and by the
  meaning. Safe. -/
  | ditherNotStarted
  /-- A panel command where the sequencer is not sending it (30_encoding rule R92,
  70_reset_and_hazards rule R276). Raised by the thirteen panel commands' meanings; `step` never asks
  for one. Safe (log entry 11). -/
  | commandNotDue (c : PanelCmd)
  deriving DecidableEq, Repr

/-- The latches at reset. DESIGN CHOICE (log entry 4): the spec gives no value. -/
def Latches.reset : Latches := { op := 0, x := 0, y := 0, color := 0, rgb := 0, w := 0 }

/-- The response at reset. DESIGN CHOICE (log entry 5): the spec gives no value. -/
def Response.reset : Response := { valid := false, status := .ok, color := 0, rgb := 0, info := 0 }

/-- The dither state at reset: `d_valid` is false; the rest is DESIGN CHOICE (log entry 6). -/
def Dither.reset : Dither := { valid := false, w := 0, col := 0, par := 0, err := [] }

/-- The machine right after reset under a given configuration (10_state rule R40). -/
def State.resetWith (c : Config) : State where
  latches := Latches.reset
  fb := []
  sess := .unknown
  rstOut := none
  dcOut := none
  run := .idle
  polls := 0
  resp := Response.reset
  dither := Dither.reset
  cfg := c
  host := []
  answers := []
  hwReset := false
  draws := 0
  trace := []

/-- The machine right after reset, with the configuration this spec takes. -/
def State.reset : State := State.resetWith takenConfig

end Sys2Proof.Machine
end

