-- ==== Sys2Proof/Machine/Operands.lean ====
section
/-! DEFINITION. Every operand form: arithmetic primitives (00_scope rule R11), nibbles, packed colours,
palette codes and triples (30_encoding rules R86, R87, R89; 40_palette rule R111), pixel addresses
(20_memory rules R51, R52), keys of the error buffer (20_memory rule R58), and which operands are
refused (30_encoding rule R91). -/

namespace Sys2Proof.Machine

/-- `clamp(v, lo, hi)` (rule R11). -/
def clamp (v lo hi : Int) : Int := if v < lo then lo else if hi < v then hi else v

/-- `sq(v)` (rule R11). -/
def square (v : Int) : Int := v * v

/-- Division truncating toward zero, for `b > 0` (rule R11). -/
def tdiv (a b : Int) : Int := if 0 ≤ a then a / b else -(-a / b)

/-- Bits 7:4 of a byte (rule R10). -/
def hi4 (b : Byte) : Code := b.extractLsb' 4 4

/-- Bits 3:0 of a byte (rule R10). -/
def lo4 (b : Byte) : Code := b.extractLsb' 0 4

/-- The byte with these two nibbles. -/
def joinNibbles (hi lo : Code) : Byte := hi ++ lo

/-- Unpacks a colour operand (rule R89). -/
def unpackRgb (v : Rgb24) : Rgb := ⟨v.extractLsb' 16 8, v.extractLsb' 8 8, v.extractLsb' 0 8⟩

/-- Packs a colour, red most significant (30_encoding rule R81). -/
def packRgb (c : Rgb) : Rgb24 := c.r ++ c.g ++ c.b

/-- The channel of a triple, zero-extended to an integer (rule R89). -/
def rgbChannel (c : Rgb) : Channel → Int
  | .red => c.r.toNat
  | .green => c.g.toNat
  | .blue => c.b.toNat

/-- `CODE`: the wire code of a colour (30_encoding rule R86). -/
def colorCode : PaletteColor → Code
  | .black => 0x0
  | .white => 0x1
  | .green => 0x2
  | .blue => 0x3
  | .red => 0x4
  | .yellow => 0x5
  | .orange => 0x6

/-- The colour of a wire code; 0x7 to 0xF are none (30_encoding rules R86, R91). -/
def colorOfCode (c : Code) : Option PaletteColor :=
  match c.toNat with
  | 0 => some .black
  | 1 => some .white
  | 2 => some .green
  | 3 => some .blue
  | 4 => some .red
  | 5 => some .yellow
  | 6 => some .orange
  | _ => none

/-- The colours in declaration order (40_palette rule R110). -/
def allColors : List PaletteColor := [.black, .white, .green, .blue, .red, .yellow, .orange]

/-- `PALETTE_RGB(p)` (40_palette rule R111). -/
def paletteRgb (P : Palette) : PaletteColor → Rgb
  | .black => P.black
  | .white => P.white
  | .green => P.green
  | .blue => P.blue
  | .red => P.red
  | .yellow => P.yellow
  | .orange => P.orange

/-- The seven triples are pairwise distinct, the one constraint on `PALETTE_RGB` (rule R111). -/
def paletteDistinct (P : Palette) : Bool := decide (allColors.map (paletteRgb P)).Nodup

/-- The other level of a line. -/
def oppositeLevel : Level → Level
  | .low => .high
  | .high => .low

/-- The bounds check of a pixel operation, made on the unsigned operands (42_framebuffer rule R141). -/
def inBounds (x y : Coord) : Bool := decide (x.toNat < panelWidth ∧ y.toNat < panelHeight)

/-- `idx(x, y)`, the byte that holds pixel `(x, y)` (20_memory rule R51). -/
def pixelAddr (x y : Coord) : Nat := x.toNat / 2 + y.toNat * rowBytes

/-- Whether pixel column `x` is the high nibble of its byte (20_memory rule R52). -/
def inHighNibble (o : NibbleOrder) (x : Coord) : Bool :=
  decide (x.toNat % 2 = 0) == decide (o = .evenHigh)

/-- The nibble of byte `b` that column `x` reads. -/
def getNibble (o : NibbleOrder) (x : Coord) (b : Byte) : Code :=
  if inHighNibble o x then hi4 b else lo4 b

/-- Byte `b` with the nibble of column `x` replaced and the other kept (42_framebuffer rule R142). -/
def setNibble (o : NibbleOrder) (x : Coord) (color : Code) (b : Byte) : Byte :=
  if inHighNibble o x then joinNibbles color (lo4 b) else joinNibbles (hi4 b) color

/-- The place of a channel in a cell's key. -/
def channelIndex : Channel → Nat
  | .red => 0
  | .green => 1
  | .blue => 2

/-- The key under which `err[c][r][k]` is listed (20_memory rule R58). The layout is the model's own
(log entry 15); the six cells of a column have neighbouring keys. -/
def errKey (c : Channel) (r : BitVec 1) (k : Nat) : Nat := k * 6 + channelIndex c * 2 + r.toNat

/-- What the spec refuses of an instruction before it has any effect: an illegal `color` (30_encoding
rule R91), a malformed row width (41_dither rule R121), a stream with no engine (rule R122). -/
def refusalOf (i : Instr) (s : State) : Option Refusal :=
  match i with
  | .setPixel _ _ color => if color.toNat > 6 then some (.illegalColor color) else none
  | .toRgb color => if color.toNat > 6 then some (.illegalColor color) else none
  | .ditherNew w => if w.toNat = 0 ∨ w.toNat > ditherWidthMax then some (.badRowWidth w) else none
  | .ditherNext _ => if s.dither.valid then none else some .ditherNotStarted
  | .new => none
  | .setPixelRgb _ _ _ => none
  | .getPixel _ _ => none
  | .clear => none
  | .init => none
  | .display => none
  | .nearest _ => none
  | .panelSet => none
  | .powerSet => none
  | .powerOffSeqSet => none
  | .powerOff => none
  | .boosterSoftstart => none
  | .deepSleep => none
  | .dataStart => none
  | .displayRefresh => none
  | .tempSensorEn => none
  | .vcomDataInterval => none
  | .vendor60 => none
  | .resolutionSet => none
  | .vendorTuningE3 => none

end Sys2Proof.Machine
end

