-- ==== Sys2Proof/Machine/Flags.lean ====
section
/-! DEFINITION. Result and status, in the place of flags: the status codes (30_encoding rule R83), the
writing of a response (10_state rule R28), the response word (30_encoding rule R84) and the session
status field (10_state rule R22). -/

namespace Sys2Proof.Machine

/-- The 4-bit `r_status` (rule R83). -/
def statusCode : Status → BitVec 4
  | .ok => 0
  | .resetPinFault => 1
  | .dataCommandPinFault => 2
  | .busyPinFault => 3
  | .wireFault => 4
  | .pixelOutOfBounds => 5
  | .panelTimeout => 6

/-- The 2-bit status field `SESS` (10_state rule R22). -/
def sessCode : Session → BitVec 2
  | .unknown => 0
  | .awake => 1
  | .asleep => 2

/-- `SESS` as the host reads it. -/
def State.sessField (s : State) : BitVec 2 := sessCode s.sess

/-- The response word `RSP` (rule R84). -/
def State.rsp (s : State) : Rsp := statusCode s.resp.status ++ s.resp.color ++ s.resp.rgb

/-- The end of a host operation: the response is written and the port is ready again (46_driver rule
R221). A result field the operation does not write is left unspecified (10_state rule R28): it holds
a FREE VALUE (log entry 7). -/
def State.respond (s : State) (st : Status) (color : Option Code) (rgb : Option Rgb24)
    (info : Option Payload) : State :=
  { s with
    run := .idle
    resp :=
      { valid := true
        status := st
        color := color.getD (Config.freeColor s.draws)
        rgb := rgb.getD (Config.freeRgb s.draws)
        info := info.getD (Config.freeInfo s.draws) }
    draws := s.draws + 1 }

end Sys2Proof.Machine
end

