-- ==== Sys2Proof/Machine/Sequences.lean ====
section
/-! DEFINITION. The step lists, constants of the block under its configuration (10_state rule R33):
the primitives of 43_protocol_primitives, what each panel command sends (45_panel_commands), the
wakeup, transfer and sleep sequences, and the lists of INIT and DISPLAY (44_protocol_sequences). -/

namespace Sys2Proof.Machine

/-- What a `WireWrite` step writes: given bytes, or the framebuffer (44_protocol_sequences step D7). -/
inductive WireSource where
  | bytes (bs : List Byte)
  | framebuffer
  deriving DecidableEq, Repr

/-- What a wait step waits for (43_protocol_primitives rule R166). -/
inductive WaitTarget where
  | idle
  | busy
  deriving DecidableEq, Repr

/-- The kinds of step (43_protocol_primitives rules R160 to R166). -/
inductive Action where
  | rstSet (l : Level)
  | dcSet (l : Level)
  | wireWrite (src : WireSource)
  | waitBusy (t : WaitTarget)
  | delayMs (n : Nat)
  deriving DecidableEq, Repr

/-- An entry of a step list: a step of its own, or step `k` of sending a panel command. -/
inductive Entry where
  | plain (a : Action)
  | command (c : PanelCmd) (k : Nat)
  deriving DecidableEq, Repr

/-- `send_command(byte)` (rule R167). -/
def sendCommand (b : Byte) : List Action := [.dcSet .low, .wireWrite (.bytes [b])]

/-- `send_data(bytes)` (rule R168): one select-line write and one wire write for the whole buffer. -/
def sendData (src : WireSource) : List Action := [.dcSet .high, .wireWrite src]

/-- `reset_panel()` (rule R169). -/
def resetPanel : List Action :=
  [.rstSet .low, .delayMs resetLowMs, .rstSet .high, .delayMs resetBootMs]

/-- PANEL_SET (45_panel_commands rule R200). -/
def panelSetActions (c : Config) : List Action := sendCommand 0x00 ++ sendData (.bytes c.panelSetData)

/-- POWER_SET (rule R201). -/
def powerSetActions (c : Config) : List Action := sendCommand 0x01 ++ sendData (.bytes c.powerSetData)

/-- POWER_OFF_SEQ_SET (rule R202). -/
def powerOffSeqSetActions (c : Config) : List Action :=
  sendCommand 0x03 ++ sendData (.bytes c.powerOffSeqData)

/-- POWER_OFF: no data (rule R203). -/
def powerOffActions : List Action := sendCommand 0x04

/-- BOOSTER_SOFTSTART (rule R204). -/
def boosterSoftstartActions (c : Config) : List Action :=
  sendCommand 0x06 ++ sendData (.bytes c.boosterData)

/-- DEEP_SLEEP (rule R205). -/
def deepSleepActions : List Action := sendCommand 0x07 ++ sendData (.bytes [sleepMagic])

/-- DATA_START: the data are the framebuffer (rule R206). -/
def dataStartActions : List Action := sendCommand 0x10 ++ sendData .framebuffer

/-- DISPLAY_REFRESH: no data (rule R207). -/
def displayRefreshActions : List Action := sendCommand 0x12

/-- TEMP_SENSOR_EN (rule R208). -/
def tempSensorEnActions (c : Config) : List Action :=
  sendCommand 0x41 ++ sendData (.bytes c.tempSensorData)

/-- VCOM_DATA_INTERVAL (rule R209). -/
def vcomDataIntervalActions (c : Config) : List Action :=
  sendCommand 0x50 ++ sendData (.bytes c.vcomData)

/-- VENDOR_60 (rule R210). -/
def vendor60Actions : List Action := sendCommand 0x60 ++ sendData (.bytes [vendor60Data])

/-- RESOLUTION_SET (rule R211). -/
def resolutionSetActions : List Action := sendCommand 0x61 ++ sendData (.bytes resBytes)

/-- VENDOR_TUNING_E3 (rule R212). -/
def vendorTuningE3Actions : List Action := sendCommand 0xE3 ++ sendData (.bytes [tuningE3Data])

/-- The steps that send a panel command. -/
def commandActions (c : Config) : PanelCmd → List Action
  | .panelSet => panelSetActions c
  | .powerSet => powerSetActions c
  | .powerOffSeqSet => powerOffSeqSetActions c
  | .powerOff => powerOffActions
  | .boosterSoftstart => boosterSoftstartActions c
  | .deepSleep => deepSleepActions
  | .dataStart => dataStartActions
  | .displayRefresh => displayRefreshActions
  | .tempSensorEn => tempSensorEnActions c
  | .vcomDataInterval => vcomDataIntervalActions c
  | .vendor60 => vendor60Actions
  | .resolutionSet => resolutionSetActions
  | .vendorTuningE3 => vendorTuningE3Actions

/-- The entries of one panel command, one for each of its steps. -/
def commandEntries (c : Config) (p : PanelCmd) : List Entry :=
  (List.range (commandActions c p).length).map (.command p)

/-- The action an entry stands for. -/
def entryAction (c : Config) : Entry → Option Action
  | .plain a => some a
  | .command p k => (commandActions c p)[k]?

/-- The commands of `WAKE_CFG` before the settling delay (44_protocol_sequences rule R182, items 1 to
9); item 3 may be configured absent. -/
def wakeCommands (c : Config) : List PanelCmd :=
  [.panelSet, .powerSet] ++ (if c.powerOffSeqPresent then [.powerOffSeqSet] else []) ++
    [.boosterSoftstart, .tempSensorEn, .vcomDataInterval, .vendor60, .resolutionSet,
      .vendorTuningE3]

/-- The wakeup sequence (rules R181, R183). -/
def wakeupList (c : Config) : List Entry :=
  resetPanel.map .plain ++ [.plain (.waitBusy .idle)] ++
    (wakeCommands c).flatMap (commandEntries c) ++
    [.plain (.delayMs cfgSettleMs)] ++ commandEntries c .vcomDataInterval

/-- The transfer-and-refresh list, steps D0 to D17 (rule R186). -/
def transferList (c : Config) : List Entry :=
  commandEntries c .resolutionSet ++ commandEntries c .dataStart ++
    commandEntries c .powerOff ++ [.plain (.waitBusy .busy)] ++
    commandEntries c .displayRefresh ++ [.plain (.waitBusy .busy)] ++
    commandEntries c .powerOff ++ [.plain (.waitBusy .idle), .plain (.delayMs refreshSettleMs)]

/-- The sleep sequence, steps S0 to S7 (rule R184). -/
def sleepList (c : Config) : List Entry :=
  [.plain (.delayMs preSleepMs)] ++ commandEntries c .deepSleep ++
    [.plain (.delayMs postSleepMs), .plain (.rstSet .low), .plain (.dcSet .low)]

/-- The step list of INIT (rule R185). -/
def initList (c : Config) : List Entry := wakeupList c ++ sleepList c

/-- The step list of DISPLAY (rule R187). -/
def displayList (c : Config) : List Entry := wakeupList c ++ transferList c ++ sleepList c

/-- The step list of an operation; only the panel operations have one (46_driver rule R221). -/
def stepList (c : Config) : HostOp → List Entry
  | .init => initList c
  | .display => displayList c
  | .new => []
  | .setPixel => []
  | .setPixelRgb => []
  | .getPixel => []
  | .clear => []
  | .nearest => []
  | .toRgb => []
  | .ditherNew => []
  | .ditherNext => []

/-- The opcodes a step list sends, in order (45_panel_commands rule R213). -/
def sentOpcodes (es : List Entry) : List Byte :=
  es.filterMap fun e => match e with
    | .command p 0 => some p.opcode
    | .command _ _ => none
    | .plain _ => none

/-- The sum of the delays of a step list in milliseconds (70_reset_and_hazards rule R285). -/
def delaySum (es : List Entry) : Nat :=
  (es.map fun e => match e with
    | .plain (.delayMs n) => n
    | .plain _ => 0
    | .command _ _ => 0).sum

/-- Where an operation's list first begins to send a panel command. -/
def commandStart (c : Config) (op : HostOp) (p : PanelCmd) : Nat :=
  (stepList c op).findIdx (· == .command p 0)

end Sys2Proof.Machine
end

