-- ==== Sys2Proof/Machine/Ops.lean ====
section
/-! DEFINITION. The shared operations: the sparse memories (20_memory), drawing an answer of the
environment, the trace, fault entry (60_exceptions rules R246, R247), the sequencer's advance (10_state
rule R26), the five capability actions and the wait step (43_protocol_primitives), and the acceptance
of a host operation (46_driver rules R220, R221). -/

namespace Sys2Proof.Machine

/-! ### Sparse memory: the cells that differ from `d`, by increasing address -/

/-- The value at an address; an unlisted address holds `d`. -/
def sparseRead {α : Type} (d : α) : List (Nat × α) → Nat → α
  | [], _ => d
  | (k, v) :: m, a => if k = a then v else sparseRead d m a

/-- `v` written at address `a`. Writing `d` takes the entry out, so the form stays canonical. -/
def sparseWrite {α : Type} [DecidableEq α] (d : α) : List (Nat × α) → Nat → α → List (Nat × α)
  | [], a, v => if v = d then [] else [(a, v)]
  | (k, u) :: m, a, v =>
    if a < k then (if v = d then (k, u) :: m else (a, v) :: (k, u) :: m)
    else if k = a then (if v = d then m else (a, v) :: m)
    else (k, u) :: sparseWrite d m a v

/-- The canonical form: every listed address is at least `lo`, addresses strictly rise, and no listed
value is `d`. -/
def sparseWfFrom {α : Type} [DecidableEq α] (d : α) : Nat → List (Nat × α) → Bool
  | _, [] => true
  | lo, (k, v) :: m => decide (lo ≤ k) && decide (v ≠ d) && sparseWfFrom d (k + 1) m

/-- The canonical form of a whole memory. -/
def sparseWf {α : Type} [DecidableEq α] (d : α) (m : List (Nat × α)) : Bool := sparseWfFrom d 0 m

/-- `fb[a]` (00_scope rule R12). -/
def readByte (m : List Host.Cell) (a : Nat) : Byte := sparseRead blankByte m a

/-- `fb[a] <- v` (00_scope rule R12). -/
def writeByte (m : List Host.Cell) (a : Nat) (v : Byte) : List Host.Cell :=
  sparseWrite blankByte m a v

/-- The framebuffer's form: canonical, and no address outside 0 .. 134399 (10_state rule R21). -/
def Memory.wf (m : List Host.Cell) : Bool :=
  sparseWf blankByte m && m.all fun c => decide (c.1 < fbBytes)

/-- The byte view: all bytes in ascending order (42_framebuffer rule R147). -/
def imageBytes (m : List Host.Cell) : List Byte := (List.range fbBytes).map (readByte m)

/-- `err[c][r][k]`. -/
def readErr (m : List (Nat × Int)) (c : Channel) (r : BitVec 1) (k : Nat) : Int :=
  sparseRead 0 m (errKey c r k)

/-- `err[c][r][k] <- v`. -/
def writeErr (m : List (Nat × Int)) (c : Channel) (r : BitVec 1) (k : Nat) (v : Int) :
    List (Nat × Int) :=
  sparseWrite 0 m (errKey c r k) v

/-! ### The environment and the trace -/

/-- The answer to the next capability action: the next listed one, else a FREE VALUE (log entry 2). -/
def State.nextAnswer (s : State) : Answer :=
  match s.answers with
  | a :: _ => a
  | [] => Config.freeAnswer s.draws

/-- The state with that answer used up. -/
def State.takeAnswer (s : State) : State :=
  match s.answers with
  | _ :: rest => { s with answers := rest }
  | [] => { s with draws := s.draws + 1 }

/-- The state with an event added to the trace (00_scope rule R15). -/
def State.emit (s : State) (e : Event) : State := { s with trace := s.trace ++ [e] }

/-! ### Fault entry. There is no return: `respond` has given control back to the host (60_exceptions
rule R249). -/

/-- Entry of a capability fault or timeout, kinds 1, 2, 3, 4 and 6 (rule R246). -/
def State.raiseFault (s : State) (kind : Status) (info : Option Payload) : State :=
  { s with sess := .unknown }.respond kind none none info

/-- Entry of `PixelOutOfBounds` (rule R247): the session state is not touched. -/
def State.raisePixelOutOfBounds (s : State) : State := s.respond .pixelOutOfBounds none none none

/-! ### The sequencer -/

/-- Whether a step list has a wait step at a position. -/
def isWaitAt (es : List Entry) (pc : Nat) : Bool :=
  match es[pc]? with
  | some (.plain (.waitBusy _)) => true
  | some (.plain _) => false
  | some (.command _ _) => false
  | none => false

/-- `sess` when the step before position `pc` of operation `op` has completed: `Awake` at the end of
the wakeup, `Asleep` at the end of the sleep (44_protocol_sequences rule R180). -/
def sessAfter (c : Config) (op : HostOp) (pc : Nat) (old : Session) : Session :=
  if pc = (stepList c op).length then .asleep
  else if pc = (wakeupList c).length then .awake
  else old

/-- The step at `pc` of `op` is complete (10_state rule R26): `pc` advances by 1; `polls` is set to 0
when a wait step is entered (rule R27); at the end of the list the operation responds `OK`. -/
def State.advance (s : State) (op : HostOp) (pc : Nat) : State :=
  if pc + 1 = (stepList s.cfg op).length then
    { s with sess := sessAfter s.cfg op (pc + 1) s.sess }.respond .ok none none none
  else
    { s with
      sess := sessAfter s.cfg op (pc + 1) s.sess
      run := .busy op (pc + 1)
      polls := if isWaitAt (stepList s.cfg op) (pc + 1) then 0 else s.polls }

/-! ### The capability actions -/

/-- `RstSet(l)` (43_protocol_primitives rule R160). -/
def State.doRstSet (s : State) (op : HostOp) (pc : Nat) (l : Level) : State :=
  match s.nextAnswer with
  | .success _ => { s.takeAnswer.emit (.rstSet l .ok) with rstOut := some l }.advance op pc
  | .fault info _ => (s.takeAnswer.emit (.rstSet l (.fault info))).raiseFault .resetPinFault (some info)

/-- `DcSet(l)` (rule R161), performed also when the line is already at `l`. -/
def State.doDcSet (s : State) (op : HostOp) (pc : Nat) (l : Level) : State :=
  match s.nextAnswer with
  | .success _ => { s.takeAnswer.emit (.dcSet l .ok) with dcOut := some l }.advance op pc
  | .fault info _ =>
    (s.takeAnswer.emit (.dcSet l (.fault info))).raiseFault .dataCommandPinFault (some info)

/-- The bytes of a `WireWrite` step. -/
def State.sourceBytes (s : State) : WireSource → List Byte
  | .bytes bs => bs
  | .framebuffer => imageBytes s.fb

/-- `WireWrite(bs)` (rule R162); a failed write has delivered some prefix of the bytes (log entry 10). -/
def State.doWireWrite (s : State) (op : HostOp) (pc : Nat) (bs : List Byte) : State :=
  match s.nextAnswer with
  | .success _ => (s.takeAnswer.emit (.wireWrite bs .ok)).advance op pc
  | .fault info delivered =>
    (s.takeAnswer.emit (.wireWrite bs (.fault info (bs.take delivered)))).raiseFault .wireFault
      (some info)

/-- `DelayMs(n)` (rule R165): it cannot fault, and nothing but the event depends on it. -/
def State.doDelay (s : State) (op : HostOp) (pc : Nat) (n : Nat) : State :=
  (s.emit (.delayMs n)).advance op pc

/-- The level a wait step waits for (rules R164, R166). -/
def awaitedLevel (c : Config) : WaitTarget → Level
  | .idle => c.busyIdle
  | .busy => oppositeLevel c.busyIdle

/-- Whether `polls` samples without the awaited level are one too many (rule R166). -/
def pollLimitReached (c : Config) (polls : Nat) : Bool :=
  match c.pollLimit with
  | none => false
  | some n => decide (n ≤ polls)

/-- One sample of `WaitBusy(t)` (rules R163, R166): the step completes at the awaited level, ends in
`PanelTimeout` at the configured limit, and otherwise stays where it is. -/
def State.doWaitSample (s : State) (op : HostOp) (pc : Nat) (t : WaitTarget) : State :=
  match s.nextAnswer with
  | .fault info _ => (s.takeAnswer.emit (.busyRead (.fault info))).raiseFault .busyPinFault (some info)
  | .success l =>
    let s1 := { s.takeAnswer.emit (.busyRead (.level l)) with polls := s.polls + 1 }
    if l = awaitedLevel s.cfg t then s1.advance op pc
    else if pollLimitReached s.cfg (s.polls + 1) then s1.raiseFault .panelTimeout none
    else { s1 with run := .busy op pc }

/-- One step of a step list: the action at position `pc` of operation `op`. -/
def State.perform (s : State) (op : HostOp) (pc : Nat) : Action → State
  | .rstSet l => s.doRstSet op pc l
  | .dcSet l => s.doDcSet op pc l
  | .wireWrite src => s.doWireWrite op pc (s.sourceBytes src)
  | .waitBusy t => s.doWaitSample op pc t
  | .delayMs n => s.doDelay op pc n

/-! ### Host operations -/

/-- Where operation `op` stands when its meaning runs: at its own position, at its start while the
port is idle, and nowhere while another operation is in progress: the port is then not ready
(46_driver rule R220). -/
def State.position (s : State) (op : HostOp) : Option Nat :=
  match s.run with
  | .idle => some 0
  | .busy op' pc => if op' = op then some pc else none

/-- The atomic step of a host operation: its outcome, unless another operation is in progress, when
the word has no effect (46_driver rule R220; 95_test_vectors V6.12; log entry 12). -/
def whenReady (op : HostOp) (s : State) (o : Host.Outcome State Fault Refusal) :
    Host.Outcome State Fault Refusal :=
  match s.position op with
  | some _ => o
  | none => .next s

/-- The step a panel operation takes at its position (46_driver rule R221). -/
def panelStep (op : HostOp) (s : State) : Host.Outcome State Fault Refusal :=
  match s.position op with
  | none => .next s
  | some pc =>
    match ((stepList s.cfg op)[pc]?).bind (entryAction s.cfg) with
    | some a => .next (s.perform op pc a)
    | none => .fault .pastStepList

/-- The step of panel command `c` the sequencer is at: operation, position, and number of the step
within the command. -/
def State.commandPosition (s : State) (c : PanelCmd) : Option (HostOp × Nat × Nat) :=
  match s.run with
  | .idle => none
  | .busy op pc =>
    match (stepList s.cfg op)[pc]? with
    | some (.command c' k) => if c' = c then some (op, pc, k) else none
    | some (.plain _) => none
    | none => none

/-- The step a panel command takes: the one of its actions `acts` that the sequencer is at (log entry
11). The block sends a command only where a step list has it (30_encoding rule R92). -/
def commandStep (c : PanelCmd) (acts : List Action) (s : State) :
    Host.Outcome State Fault Refusal :=
  match s.commandPosition c with
  | none => .refused (.commandNotDue c)
  | some (op, pc, k) =>
    match acts[k]? with
    | some a => .next (s.perform op pc a)
    | none => .fault .pastStepList

/-- Acceptance of a word whose `op` names `op` (46_driver rule R221): the latches are loaded (10_state
rule R20), `run <- Busy(op, 0)`, and the last response is no longer valid (10_state rule R28). -/
def State.load (s : State) (op : HostOp) (w : Hcw) : State :=
  { s with
    latches :=
      { op := w.opField
        x := w.xField
        y := w.yField
        color := w.colorField
        rgb := w.rgbField
        w := w.xField }
    run := .busy op 0
    resp := { s.resp with valid := false } }

/-- What a reset of the block does to its elements (10_state rule R40; 46_driver rule R222). The
operand latches are written by acceptance alone (10_state rule R20), and the response by whoever ends
the operation. -/
def State.resetBlock (s : State) : State :=
  { s with
    fb := []
    sess := .unknown
    rstOut := none
    dcOut := none
    run := .idle
    polls := 0
    dither := Dither.reset }

end Sys2Proof.Machine
end

