-- ==== Sys2Proof/Machine/PaletteUnit.lean ====
section
/-! DEFINITION. The palette quantizer: NEAREST and TO_RGB (40_palette). -/

namespace Sys2Proof.Machine

/-- `dist(n)`, the squared Euclidean distance (40_palette rule R112). -/
def colorDist (P : Palette) (p : PaletteColor) (r g b : Int) : Int :=
  square (r - rgbChannel (paletteRgb P p) .red) + square (g - rgbChannel (paletteRgb P p) .green) +
    square (b - rgbChannel (paletteRgb P p) .blue)

/-- The nearest colour; an equal distance keeps the colour declared earlier (rule R112). -/
def nearestColor (P : Palette) (r g b : Int) : PaletteColor :=
  [PaletteColor.white, .green, .blue, .red, .yellow, .orange].foldl
    (fun best p => if colorDist P p r g b < colorDist P best r g b then p else best) .black

/-- The nearest colour of a packed operand. -/
def nearestOfRgb (P : Palette) (v : Rgb24) : PaletteColor :=
  nearestColor P (rgbChannel (unpackRgb v) .red) (rgbChannel (unpackRgb v) .green)
    (rgbChannel (unpackRgb v) .blue)

/-- NEAREST (rule R112): no state is written. -/
def execNearest (rgb : Rgb24) (s : State) : Host.Outcome State Fault Refusal :=
  whenReady .nearest s
    (.next (s.respond .ok (some (colorCode (nearestOfRgb s.cfg.palette rgb))) none none))

/-- TO_RGB (rule R113): no state is written; a code of 0x7 to 0xF is refused. -/
def execToRgb (color : Code) (s : State) : Host.Outcome State Fault Refusal :=
  whenReady .toRgb s
    (match colorOfCode color with
    | some p => .next (s.respond .ok none (some (packRgb (paletteRgb s.cfg.palette p))) none)
    | none => .refused (.illegalColor color))

end Sys2Proof.Machine
end

