-- ==== Sys2Proof/Machine/DitherUnit.lean ====
section
/-! DEFINITION. The dither engine: DITHER_NEW and DITHER_NEXT (41_dither). -/

namespace Sys2Proof.Machine

/-- The four non-zero entries of the kernel: column offset, whether the target is in the next row, and
weight (41_dither rule R123). -/
def kernelTargets : List (Int × Bool × Int) :=
  [(1, false, 7), (-1, true, 3), (0, true, 5), (1, true, 1)]

/-- The amount pushed to a target: product first, then one division (rule R124). -/
def pushAmount (wt e : Int) : Int := tdiv (wt * e) kernelDiv

/-- One push: the weighted residual is added to cell `(c, r, k)`. -/
def pushErr (m : List (Nat × Int)) (c : Channel) (r : BitVec 1) (k : Nat) (wt e : Int) :
    List (Nat × Int) :=
  writeErr m c r k (readErr m c r k + pushAmount wt e)

/-- The row a target of the kernel is in: parity `p`, or the other parity for the next row. -/
def targetRow (p : BitVec 1) (next : Bool) : BitVec 1 := if next then p ^^^ 1 else p

/-- Step 5 for one target: the three channels, or nothing where the target is outside `0 .. w - 1`
(rule R125). -/
def pushTarget (p : BitVec 1) (i w : Nat) (e : Channel → Int) (m : List (Nat × Int))
    (t : Int × Bool × Int) : List (Nat × Int) :=
  let k : Int := (i : Int) + t.1
  if 0 ≤ k ∧ k < (w : Int) then
    [Channel.red, .green, .blue].foldl
      (fun m c => pushErr m c (targetRow p t.2.1) k.toNat t.2.2 (e c)) m
  else m

/-- Step 5: the residual of every channel is distributed (rule R122). -/
def diffuse (p : BitVec 1) (i w : Nat) (e : Channel → Int) (m : List (Nat × Int)) :
    List (Nat × Int) :=
  kernelTargets.foldl (pushTarget p i w e) m

/-- Step 2: the consumed cell of every channel is zeroed (rule R122). -/
def consumeErr (m : List (Nat × Int)) (p : BitVec 1) (i : Nat) : List (Nat × Int) :=
  [Channel.red, .green, .blue].foldl (fun m c => writeErr m c p i 0) m

/-- Step 1: the adjusted channel (rule R122). -/
def adjusted (d : Dither) (raw : Rgb) (c : Channel) : Int :=
  clamp (rgbChannel raw c + readErr d.err c d.par d.col.toNat) 0 255

/-- Step 3: the colour chosen for the next pixel (rule R122). -/
def ditherColor (P : Palette) (d : Dither) (raw : Rgb) : PaletteColor :=
  nearestColor P (adjusted d raw .red) (adjusted d raw .green) (adjusted d raw .blue)

/-- Step 4: the residual of a channel (rule R122). -/
def channelResidual (P : Palette) (d : Dither) (raw : Rgb) (c : Channel) : Int :=
  adjusted d raw c - rgbChannel (paletteRgb P (ditherColor P d raw)) c

/-- The dither state after the next pixel (rule R122). -/
def ditherAdvance (P : Palette) (d : Dither) (raw : Rgb) : Dither :=
  let i := d.col.toNat
  let err := diffuse d.par i d.w.toNat (channelResidual P d raw) (consumeErr d.err d.par i)
  if i + 1 = d.w.toNat then { d with col := 0, par := d.par ^^^ 1, err := err }
  else { d with col := d.col + 1, err := err }

/-- DITHER_NEW (rule R121): a fresh engine. The whole error buffer is 0 after it (10_state rule R40,
log entry 15). -/
def execDitherNew (w : Coord) (s : State) : Host.Outcome State Fault Refusal :=
  whenReady .ditherNew s
    (if w.toNat = 0 ∨ w.toNat > ditherWidthMax then .refused (.badRowWidth w)
    else
      .next ({ s with dither := { valid := true, w := w, col := 0, par := 0, err := [] } }.respond
        .ok none none none))

/-- DITHER_NEXT (rule R122): one pixel of the stream; refused before any DITHER_NEW. -/
def execDitherNext (rgb : Rgb24) (s : State) : Host.Outcome State Fault Refusal :=
  whenReady .ditherNext s
    (if s.dither.valid then
      .next ({ s with dither := ditherAdvance s.cfg.palette s.dither (unpackRgb rgb) }.respond .ok
        (some (colorCode (ditherColor s.cfg.palette s.dither (unpackRgb rgb)))) none none)
    else .refused .ditherNotStarted)

end Sys2Proof.Machine
end

