-- ==== Sys2Proof/Machine/Driver.lean ====
section
/-! DEFINITION. The driver: NEW, INIT and DISPLAY, the hardware reset, acceptance at the host port, and
fetching the instruction of the step in progress (46_driver; 44_protocol_sequences rules R185, R187;
70_reset_and_hazards rule R270). -/

namespace Sys2Proof.Machine

/-- NEW (46_driver rule R222): the reset of the block as a host operation, no I/O. -/
def execNew (s : State) : Host.Outcome State Fault Refusal :=
  whenReady .new s (.next (s.resetBlock.respond .ok none none none))

/-- INIT (44_protocol_sequences rule R185): the step of its list that the sequencer is at. -/
def execInit (s : State) : Host.Outcome State Fault Refusal := panelStep .init s

/-- DISPLAY (44_protocol_sequences rule R187): the step of its list that the sequencer is at. -/
def execDisplay (s : State) : Host.Outcome State Fault Refusal := panelStep .display s

/-- The hardware reset of the block (70_reset_and_hazards rule R270): every element has its reset value
(10_state rule R40), whatever was in progress; no trace event, nothing done to the panel. -/
def State.hardwareReset (s : State) : State :=
  { s.resetBlock with latches := Latches.reset, resp := Response.reset, hwReset := false }

/-- The host port while `run = Idle` (46_driver rules R220, R221): nothing presented, nothing happens;
else the word is accepted, or refused where the spec gives it no meaning (30_encoding rule R91). -/
def acceptNext (s : State) : Host.Outcome State Fault Refusal :=
  match s.host with
  | [] => .next s
  | w :: rest =>
    match HostOp.ofCode w.opField with
    | none => .refused (.undefinedOp w.opField)
    | some op =>
      match refusalOf (op.instr w.xField w.yField w.colorField w.rgbField w.xField) s with
      | some r => .refused r
      | none => .next ({ s with host := rest }.load op w)

/-- The instruction of the operation in progress, read from the operand latches (10_state rule R20). -/
def State.latched (s : State) (op : HostOp) : Instr :=
  op.instr s.latches.x s.latches.y s.latches.color s.latches.rgb s.latches.w

/-- The instruction of the step at position `pc` of operation `op`: the panel command that the step
list has there, decoded from its opcode, else the host operation itself. -/
def State.fetchAt (s : State) (op : HostOp) (pc : Nat) : Except DecodeError Instr :=
  match (stepList s.cfg op)[pc]? with
  | some (.command c _) => decodeWire c.opcode
  | some (.plain _) => .ok (s.latched op)
  | none => .ok (s.latched op)

/-- The refusal of a word or byte that decodes to nothing. -/
def refusalOfDecode : DecodeError → Refusal
  | .undefinedOp code => .undefinedOp code
  | .undefinedOpcode b => .undefinedOpcode b

end Sys2Proof.Machine
end

