-- ==== Sys2Proof/Machine/Framebuffer.lean ====
section
/-! DEFINITION. The framebuffer pixel encoder: SET_PIXEL, SET_PIXEL_RGB, GET_PIXEL and CLEAR
(42_framebuffer). -/

namespace Sys2Proof.Machine

/-- The palette code of pixel `(x, y)` as the framebuffer holds it (20_memory rules R51, R52). -/
def State.pixel (s : State) (x y : Coord) : Code :=
  getNibble s.cfg.nibbleOrder x (readByte s.fb (pixelAddr x y))

/-- The read-modify-write of one nibble (42_framebuffer rule R142). -/
def State.putPixel (s : State) (x y : Coord) (color : Code) : State :=
  { s with
    fb := writeByte s.fb (pixelAddr x y)
      (setNibble s.cfg.nibbleOrder x color (readByte s.fb (pixelAddr x y))) }

/-- The bounds check in front of a pixel operation (rule R141): out of bounds, `PixelOutOfBounds` and
no other change. -/
def boundsChecked (x y : Coord) (s done : State) : State :=
  if inBounds x y then done else s.raisePixelOutOfBounds

/-- SET_PIXEL (rule R142); a `color` of 0x7 to 0xF is refused before the bounds check. -/
def execSetPixel (x y : Coord) (color : Code) (s : State) : Host.Outcome State Fault Refusal :=
  whenReady .setPixel s
    (if color.toNat > 6 then .refused (.illegalColor color)
    else .next (boundsChecked x y s ((s.putPixel x y color).respond .ok none none none)))

/-- SET_PIXEL_RGB (rule R143): NEAREST, then the write of SET_PIXEL; the dither state has no part. -/
def execSetPixelRgb (x y : Coord) (rgb : Rgb24) (s : State) : Host.Outcome State Fault Refusal :=
  whenReady .setPixelRgb s
    (.next (boundsChecked x y s
      ((s.putPixel x y (colorCode (nearestOfRgb s.cfg.palette rgb))).respond .ok none none none)))

/-- GET_PIXEL (rule R144): no state is written. -/
def execGetPixel (x y : Coord) (s : State) : Host.Outcome State Fault Refusal :=
  whenReady .getPixel s
    (.next (boundsChecked x y s (s.respond .ok (some (s.pixel x y)) none none)))

/-- CLEAR (rule R146): every byte is `blankByte`, that is, no byte is listed. -/
def execClear (s : State) : Host.Outcome State Fault Refusal :=
  whenReady .clear s (.next ({ s with fb := [] }.respond .ok none none none))

end Sys2Proof.Machine
end

