-- ==== Sys2Proof/Machine/PanelCommands.lean ====
section
/-! DEFINITION. The thirteen panel commands as the block sends them (45_panel_commands rules R200 to
R212). Each meaning takes the step of its command that the sequencer is at. -/

namespace Sys2Proof.Machine

/-- PANEL_SET, opcode 0x00 (rule R200). -/
def execPanelSet (s : State) : Host.Outcome State Fault Refusal :=
  commandStep .panelSet (panelSetActions s.cfg) s

/-- POWER_SET, opcode 0x01 (rule R201). -/
def execPowerSet (s : State) : Host.Outcome State Fault Refusal :=
  commandStep .powerSet (powerSetActions s.cfg) s

/-- POWER_OFF_SEQ_SET, opcode 0x03 (rule R202). -/
def execPowerOffSeqSet (s : State) : Host.Outcome State Fault Refusal :=
  commandStep .powerOffSeqSet (powerOffSeqSetActions s.cfg) s

/-- POWER_OFF, opcode 0x04 (rule R203). -/
def execPowerOff (s : State) : Host.Outcome State Fault Refusal :=
  commandStep .powerOff powerOffActions s

/-- BOOSTER_SOFTSTART, opcode 0x06 (rule R204). -/
def execBoosterSoftstart (s : State) : Host.Outcome State Fault Refusal :=
  commandStep .boosterSoftstart (boosterSoftstartActions s.cfg) s

/-- DEEP_SLEEP, opcode 0x07 (rule R205). -/
def execDeepSleep (s : State) : Host.Outcome State Fault Refusal :=
  commandStep .deepSleep deepSleepActions s

/-- DATA_START, opcode 0x10 (rule R206). -/
def execDataStart (s : State) : Host.Outcome State Fault Refusal :=
  commandStep .dataStart dataStartActions s

/-- DISPLAY_REFRESH, opcode 0x12 (rule R207). -/
def execDisplayRefresh (s : State) : Host.Outcome State Fault Refusal :=
  commandStep .displayRefresh displayRefreshActions s

/-- TEMP_SENSOR_EN, opcode 0x41 (rule R208). -/
def execTempSensorEn (s : State) : Host.Outcome State Fault Refusal :=
  commandStep .tempSensorEn (tempSensorEnActions s.cfg) s

/-- VCOM_DATA_INTERVAL, opcode 0x50 (rule R209). -/
def execVcomDataInterval (s : State) : Host.Outcome State Fault Refusal :=
  commandStep .vcomDataInterval (vcomDataIntervalActions s.cfg) s

/-- VENDOR_60, opcode 0x60 (rule R210). -/
def execVendor60 (s : State) : Host.Outcome State Fault Refusal :=
  commandStep .vendor60 vendor60Actions s

/-- RESOLUTION_SET, opcode 0x61 (rule R211). -/
def execResolutionSet (s : State) : Host.Outcome State Fault Refusal :=
  commandStep .resolutionSet resolutionSetActions s

/-- VENDOR_TUNING_E3, opcode 0xE3 (rule R212). -/
def execVendorTuningE3 (s : State) : Host.Outcome State Fault Refusal :=
  commandStep .vendorTuningE3 vendorTuningE3Actions s

end Sys2Proof.Machine
end

