-- ==== Sys2Proof/Machine/Dispatch.lean ====
section
/-! DEFINITION. The dispatch of an instruction to its meaning (46_driver rule R223). -/

namespace Sys2Proof.Machine

/-- The meaning of an instruction. -/
def exec (i : Instr) (s : State) : Host.Outcome State Fault Refusal :=
  match i with
  | .new => Sys2Proof.Machine.execNew s
  | .setPixel x y color => Sys2Proof.Machine.execSetPixel x y color s
  | .setPixelRgb x y rgb => Sys2Proof.Machine.execSetPixelRgb x y rgb s
  | .getPixel x y => Sys2Proof.Machine.execGetPixel x y s
  | .clear => Sys2Proof.Machine.execClear s
  | .init => Sys2Proof.Machine.execInit s
  | .display => Sys2Proof.Machine.execDisplay s
  | .nearest rgb => Sys2Proof.Machine.execNearest rgb s
  | .toRgb color => Sys2Proof.Machine.execToRgb color s
  | .ditherNew w => Sys2Proof.Machine.execDitherNew w s
  | .ditherNext rgb => Sys2Proof.Machine.execDitherNext rgb s
  | .panelSet => Sys2Proof.Machine.execPanelSet s
  | .powerSet => Sys2Proof.Machine.execPowerSet s
  | .powerOffSeqSet => Sys2Proof.Machine.execPowerOffSeqSet s
  | .powerOff => Sys2Proof.Machine.execPowerOff s
  | .boosterSoftstart => Sys2Proof.Machine.execBoosterSoftstart s
  | .deepSleep => Sys2Proof.Machine.execDeepSleep s
  | .dataStart => Sys2Proof.Machine.execDataStart s
  | .displayRefresh => Sys2Proof.Machine.execDisplayRefresh s
  | .tempSensorEn => Sys2Proof.Machine.execTempSensorEn s
  | .vcomDataInterval => Sys2Proof.Machine.execVcomDataInterval s
  | .vendor60 => Sys2Proof.Machine.execVendor60 s
  | .resolutionSet => Sys2Proof.Machine.execResolutionSet s
  | .vendorTuningE3 => Sys2Proof.Machine.execVendorTuningE3 s

end Sys2Proof.Machine
end

