-- ==== Sys2Proof/Machine/Step.lean ====
section
/-! DEFINITION. One step of the machine, and an instruction placed where the next step runs it. -/

namespace Sys2Proof.Machine

/-- One step: the hardware reset where it is asserted; else, while `run = Idle`, the host port
(46_driver rule R220); else the meaning of the instruction of the step in progress (46_driver rule
R221). -/
def step (s : State) : Host.Outcome State Fault Refusal :=
  if s.hwReset then .next s.hardwareReset
  else
    match s.run with
    | .idle => acceptNext s
    | .busy op pc =>
      match s.fetchAt op pc with
      | .ok i => exec i s
      | .error e => .refused (refusalOfDecode e)

/-- `s` with the instruction whose bits are `w` where the next step runs it. A host command word
stands accepted, its fields in the latches and its operation in `run`; a word that names no operation
is presented at the port, where acceptance refuses it. An opcode byte stands where DISPLAY's step list
begins to send it (log entries 1 and 11). -/
def State.withFetchWord (s : State) (nbits w : Nat) : State :=
  match nbits with
  | 64 =>
    match HostOp.ofCode (Hcw.opField (BitVec.ofNat 64 w)) with
    | some op => { s with hwReset := false }.load op (BitVec.ofNat 64 w)
    | none => { s with hwReset := false, run := .idle, host := BitVec.ofNat 64 w :: s.host }
  | 8 =>
    match PanelCmd.ofOpcode (BitVec.ofNat 8 w) with
    | some c =>
      { s with hwReset := false, run := .busy .display (commandStart s.cfg .display c) }
    | none => s
  | _ => s

end Sys2Proof.Machine
end

