-- ==== Sys2Proof/Machine/Trace.lean ====
section
/-! DEFINITION. Reading a trace: the flattened wire stream (00_scope rule R15), the part of it that reached
the panel (43_protocol_primitives rule R162), and its cutting into panel commands (30_encoding rule R85). -/

namespace Sys2Proof.Machine

/-- The bytes of an event's `WireWrite`, whatever the environment answered. -/
def Event.writtenBytes : Event → List Byte
  | .wireWrite bs _ => bs
  | .rstSet _ _ => []
  | .dcSet _ _ => []
  | .busyRead _ => []
  | .delayMs _ => []

/-- The bytes of an event that reached the panel: of a failed write, the prefix that did (log entry 10). -/
def Event.sentBytes : Event → List Byte
  | .wireWrite bs .ok => bs
  | .wireWrite _ (.fault _ sent) => sent
  | .rstSet _ _ => []
  | .dcSet _ _ => []
  | .busyRead _ => []
  | .delayMs _ => []

/-- The level of the select line after an event; a failed `DcSet` does not count (43_protocol_primitives
rule R161). -/
def Event.dcAfter (dc : Option Level) : Event → Option Level
  | .dcSet l .ok => some l
  | .dcSet _ (.fault _) => dc
  | .rstSet _ _ => dc
  | .wireWrite _ _ => dc
  | .busyRead _ => dc
  | .delayMs _ => dc

/-- The bytes that `bytesOf` takes from the events of a trace that begins with the select line at `dc`,
each with the level of the line at its event, `low` for command and `high` for data. -/
def taggedBytes (bytesOf : Event → List Byte) :
    Option Level → List Event → List (Option Level × Byte)
  | _, [] => []
  | dc, e :: es => (bytesOf e).map (fun b => (dc, b)) ++ taggedBytes bytesOf (e.dcAfter dc) es

/-- The flattened wire stream: every byte of every `WireWrite`, a failed one's too (00_scope rule R15). -/
def wireStream : Option Level → List Event → List (Option Level × Byte) :=
  taggedBytes Event.writtenBytes

/-- The part of the flattened wire stream that reached the panel (43_protocol_primitives rule R162). -/
def deliveredStream : Option Level → List Event → List (Option Level × Byte) :=
  taggedBytes Event.sentBytes

/-- The data bytes at the head of a stream, up to the next command byte. -/
def dataPrefix : List (Option Level × Byte) → List Byte
  | [] => []
  | (dc, b) :: st => if dc = some .low then [] else b :: dataPrefix st

/-- A stream cut at every command byte: opcode and data of each command (30_encoding rule R85). Bytes
before the first command byte belong to no command. -/
def commandsOf : List (Option Level × Byte) → List (Byte × List Byte)
  | [] => []
  | (dc, b) :: st => if dc = some .low then (b, dataPrefix st) :: commandsOf st else commandsOf st

/-- The command bytes of a stream. -/
def commandBytes (st : List (Option Level × Byte)) : List Byte :=
  (st.filter fun p => decide (p.1 = some .low)).map (·.2)

/-- The data bytes of a stream. -/
def dataBytes (st : List (Option Level × Byte)) : List Byte :=
  (st.filter fun p => decide (p.1 = some .high)).map (·.2)

/-- The event a step leaves when the environment answers it with success, a sampled busy line being at
level `l`. -/
def successEvent (s : State) (l : Level) : Action → Event
  | .rstSet v => .rstSet v .ok
  | .dcSet v => .dcSet v .ok
  | .wireWrite src => .wireWrite (s.sourceBytes src) .ok
  | .waitBusy _ => .busyRead (.level l)
  | .delayMs n => .delayMs n

end Sys2Proof.Machine
end

