-- ==== Sys2Proof/Safety.lean ====
section
/-! DEFINITION. What counts as a safe state, in the terms the statements use: the invariants the spec
states of its state elements, and well-formed configurations and environments. -/

namespace Sys2Proof

open Sys2Proof.Machine

/-- What the spec asks of a configuration: the seven triples are pairwise distinct (40_palette rule R111)
and every data list is non-empty (44_protocol_sequences rule R182). -/
def Config.wf (c : Config) : Bool :=
  paletteDistinct c.palette &&
    [c.panelSetData, c.powerSetData, c.powerOffSeqData, c.boosterData, c.tempSensorData,
      c.vcomData].all fun d => !d.isEmpty

/-- Both nibbles of a byte are palette codes, 0 to 6 (20_memory rule R57). -/
def legalByte (b : Byte) : Bool := decide ((hi4 b).toNat ≤ 6) && decide ((lo4 b).toNat ≤ 6)

/-- Every byte of the framebuffer is legal (10_state rule R21). -/
def FbLegal (s : State) : Prop := ∀ a, legalByte (readByte s.fb a) = true

/-- Both sparse memories are in canonical form, and the framebuffer lists no address it does not have. -/
def MemoryWf (s : State) : Prop := Memory.wf s.fb = true ∧ sparseWf 0 s.dither.err = true

/-- INIT and DISPLAY (00_scope rule R17). -/
def isPanelOp (op : HostOp) : Bool := decide (op = .init) || decide (op = .display)

/-- `run` and `sess` fit together (10_state rule R26, 44_protocol_sequences rule R180): a position is
inside its step list, `Awake` holds exactly from the end of the wakeup on, and between operations the
session is never `Awake`. -/
def SequencerInv (s : State) : Prop :=
  match s.run with
  | .idle => s.sess ≠ .awake
  | .busy op pc =>
    if isPanelOp op then
      pc < (stepList s.cfg op).length ∧ (s.sess = .awake ↔ (wakeupList s.cfg).length ≤ pc)
    else pc = 0 ∧ s.sess ≠ .awake

/-- Whenever the step in progress writes to the wire, the select line has been driven: low for the
opcode byte, which is step 1 of a command, and high for its data, step 3 (10_state rule R24). -/
def SelectLineInv (s : State) : Prop :=
  ∀ op pc c, s.run = .busy op pc →
    ((stepList s.cfg op)[pc]? = some (.command c 1) → s.dcOut = some .low) ∧
    ((stepList s.cfg op)[pc]? = some (.command c 3) → s.dcOut = some .high)

/-- A response is valid only between operations (10_state rule R28). -/
def ResponseInv (s : State) : Prop := s.resp.valid = true → s.run = .idle

/-- The largest magnitude cell `(r, k)` can have while the next pixel is at column `d_col` of row parity
`d_par` (41_dither rule R130): what the pushes it has received since it was last zeroed can add up to. -/
def cellBound (d : Dither) (r : BitVec 1) (k : Nat) : Int :=
  if d.w.toNat ≤ k then 0
  else if r = d.par then
    if k < d.col.toNat then 0 else if k = d.col.toNat then 111 + 15 + 79 + 47 else 15 + 79 + 47
  else
    if k + 1 < d.col.toNat then 15 + 79 + 47
    else if k + 1 = d.col.toNat then 15 + 79
    else if k = d.col.toNat then 15
    else 0

/-- The dither position is inside its row (10_state rule R30), and every cell is within its bound
(10_state rule R31, 41_dither rule R130). -/
def DitherInv (s : State) : Prop :=
  s.dither.valid = true →
    (1 ≤ s.dither.w.toNat ∧ s.dither.w.toNat ≤ ditherWidthMax ∧
      s.dither.col.toNat < s.dither.w.toNat) ∧
    ∀ c r k, -cellBound s.dither r k ≤ readErr s.dither.err c r k ∧
      readErr s.dither.err c r k ≤ cellBound s.dither r k

/-- `n` executions of the same instruction, one after another, stopping at a fault or refusal: a panel
operation or command takes one step of its list each time. -/
def execTimes (i : Instr) : Nat → State → Host.Outcome State Fault Refusal
  | 0, s => .next s
  | n + 1, s =>
    match exec i s with
    | .next t => execTimes i n t
    | .fault r => .fault r
    | .refused r => .refused r

/-- `n` steps of the machine, stopping at a fault or refusal. -/
def stepTimes : Nat → State → Host.Outcome State Fault Refusal
  | 0, s => .next s
  | n + 1, s =>
    match step s with
    | .next t => stepTimes n t
    | .fault r => .fault r
    | .refused r => .refused r

/-- What the environment answers to a wait step that is over after `n + 1` samples: `n` times the other
level, then the awaited one (43_protocol_primitives rule R166). -/
def waitAnswers (c : Config) (target : WaitTarget) (n : Nat) : List Answer :=
  List.replicate n (Answer.success (oppositeLevel (awaitedLevel c target))) ++
    [Answer.success (awaitedLevel c target)]

/-- Every answer of a list is a success. -/
def allSuccess (as : List Answer) : Bool :=
  as.all fun a => match a with
    | .success _ => true
    | .fault _ _ => false

end Sys2Proof
end

