-- ==== Sys2Proof/Certificates/Slice0/Obligations.lean ====
section
/-! DEFINITION. The statements for the provers, each formalising what a numbered rule of spec/ says the
block does. A statement quantifies over every state, so over every configuration. -/

open Sys2Proof Sys2Proof.Machine

/-! ### The words the statements share -/

/-- The port is ready for operation `op`, or `op` is the operation in progress (46_driver rule R220). -/
def Sys2Proof.MayRun (op : HostOp) (s : State) : Prop :=
  s.run = .idle ∨ ∃ pc, s.run = .busy op pc

/-- The operation has ended with this status: response written, port ready (46_driver rule R221). -/
def Sys2Proof.Responded (t : State) (st : Status) : Prop :=
  t.run = .idle ∧ t.resp.valid = true ∧ t.resp.status = st

/-- Nothing changed but, possibly, the framebuffer, the dither state, the response, `run` and the
model's counter of free values. -/
def Sys2Proof.SameOutside (s t : State) : Prop :=
  t.latches = s.latches ∧ t.sess = s.sess ∧ t.rstOut = s.rstOut ∧ t.dcOut = s.dcOut ∧
    t.polls = s.polls ∧ t.cfg = s.cfg ∧ t.host = s.host ∧ t.answers = s.answers ∧
    t.hwReset = s.hwReset ∧ t.trace = s.trace

/-- What no step of a panel operation touches (46_driver rule R224). -/
def Sys2Proof.SameMemories (s t : State) : Prop :=
  t.fb = s.fb ∧ t.dither = s.dither ∧ t.latches = s.latches ∧ t.cfg = s.cfg ∧ t.host = s.host ∧
    t.hwReset = s.hwReset

/-- Panel operation `op` is in progress and the step at its position is action `a`. -/
def Sys2Proof.StepAt (s : State) (op : HostOp) (pc : Nat) (a : Action) : Prop :=
  isPanelOp op = true ∧ s.run = .busy op pc ∧
    ((stepList s.cfg op)[pc]?).bind (entryAction s.cfg) = some a

/-- The step at `pc` is complete (10_state rules R26, R27; 44_protocol_sequences rule R180): the next
position, or at the end of the list the response `OK`; `sess` and `polls` as those rules say. -/
def Sys2Proof.Completed (s t : State) (op : HostOp) (pc : Nat) (polls : Nat) : Prop :=
  (pc + 1 = (stepList s.cfg op).length →
    Responded t .ok ∧ t.sess = .asleep ∧ t.polls = polls) ∧
  (pc + 1 ≠ (stepList s.cfg op).length →
    t.run = .busy op (pc + 1) ∧ t.resp = s.resp ∧
    t.sess = (if pc + 1 = (wakeupList s.cfg).length then .awake else s.sess) ∧
    t.polls = (if isWaitAt (stepList s.cfg op) (pc + 1) then 0 else polls))

/-- The operation is aborted (60_exceptions rule R246): status, `sess <- Unknown`, `run <- Idle`, and
nothing else of the block changes. -/
def Sys2Proof.Aborted (s t : State) (kind : Status) : Prop :=
  Responded t kind ∧ t.sess = .unknown ∧ t.rstOut = s.rstOut ∧ t.dcOut = s.dcOut ∧
    SameMemories s t

/-- The fault an action can be answered with (60_exceptions rule R240); a delay has none. -/
def Sys2Proof.faultKind : Action → Option Status
  | .rstSet _ => some .resetPinFault
  | .dcSet _ => some .dataCommandPinFault
  | .wireWrite _ => some .wireFault
  | .waitBusy _ => some .busyPinFault
  | .delayMs _ => none

/-- Panel command `c`, instruction `i`, is sent with data: wherever a step list begins it and the four
actions succeed, four executions write the opcode with the select line low and then the data, in one
write, with the line high (43_protocol_primitives rules R167, R168). -/
def Sys2Proof.SendsWithData (i : Instr) (c : PanelCmd) (opcode : Byte) (data : State → List Byte) :
    Prop :=
  ∀ (s : State) (op : HostOp) (pc : Nat) (b1 b2 b3 b4 : Level) (rest : List Answer),
    s.run = .busy op pc → (stepList s.cfg op)[pc]? = some (.command c 0) →
    s.answers = .success b1 :: .success b2 :: .success b3 :: .success b4 :: rest →
    ∃ t1 t2 t3 t4, exec i s = .next t1 ∧ exec i t1 = .next t2 ∧ exec i t2 = .next t3 ∧
      exec i t3 = .next t4 ∧
      t4.trace = s.trace ++ [.dcSet .low .ok, .wireWrite [opcode] .ok, .dcSet .high .ok,
        .wireWrite (data s) .ok] ∧
      t4.run = .busy op (pc + 4) ∧ t4.dcOut = some .high ∧ t4.rstOut = s.rstOut ∧
      t4.sess = (if pc + 4 = (wakeupList s.cfg).length then .awake else s.sess) ∧
      t4.polls = s.polls ∧ t4.resp = s.resp ∧ t4.answers = rest ∧ SameMemories s t4

/-- Panel command `c`, instruction `i`, is sent without data: two executions, and the wait step that
always follows is entered with `polls = 0` (45_panel_commands rules R203, R207). -/
def Sys2Proof.SendsWithoutData (i : Instr) (c : PanelCmd) (opcode : Byte) : Prop :=
  ∀ (s : State) (op : HostOp) (pc : Nat) (b1 b2 : Level) (rest : List Answer),
    s.run = .busy op pc → (stepList s.cfg op)[pc]? = some (.command c 0) →
    s.answers = .success b1 :: .success b2 :: rest →
    ∃ t1 t2, exec i s = .next t1 ∧ exec i t1 = .next t2 ∧
      t2.trace = s.trace ++ [.dcSet .low .ok, .wireWrite [opcode] .ok] ∧
      t2.run = .busy op (pc + 2) ∧ isWaitAt (stepList s.cfg op) (pc + 2) = true ∧
      t2.dcOut = some .low ∧ t2.rstOut = s.rstOut ∧ t2.sess = s.sess ∧ t2.polls = 0 ∧
      t2.resp = s.resp ∧ t2.answers = rest ∧ SameMemories s t2

/-- The squared Euclidean distance from a packed colour to a palette colour (40_palette rule R112). -/
def Sys2Proof.distanceTo (P : Palette) (rgb : Rgb24) (p : PaletteColor) : Int :=
  (((rgb.extractLsb' 16 8).toNat : Int) - (paletteRgb P p).r.toNat) ^ 2 +
    (((rgb.extractLsb' 8 8).toNat : Int) - (paletteRgb P p).g.toNat) ^ 2 +
    (((rgb.extractLsb' 0 8).toNat : Int) - (paletteRgb P p).b.toNat) ^ 2

/-- A raw channel plus the error of the cell at the engine's position, clamped to 0 .. 255 (41_dither
rule R122, step 1). -/
def Sys2Proof.clampedChannel (d : Dither) (c : Channel) (raw : Nat) : Int :=
  max 0 (min 255 ((raw : Int) + readErr d.err c d.par d.col.toNat))

/-- A raw channel of a packed colour (30_encoding rules R81, R89). -/
def Sys2Proof.rawChannel (rgb : Rgb24) : Channel → Nat
  | .red => (rgb.extractLsb' 16 8).toNat
  | .green => (rgb.extractLsb' 8 8).toNat
  | .blue => (rgb.extractLsb' 0 8).toNat

/-- A channel of a palette triple. -/
def Sys2Proof.tripleChannel (t : Rgb) : Channel → Nat
  | .red => t.r.toNat
  | .green => t.g.toNat
  | .blue => t.b.toNat

/-- The residual of channel `c` of pixel `rgb`: its adjusted channel less that channel of the chosen
colour's triple (41_dither rule R122, steps 1, 3 and 4). -/
def Sys2Proof.residualOf (P : Palette) (d : Dither) (rgb : Rgb24) (c : Channel) : Int :=
  let adj (c : Channel) : Int := clampedChannel d c (rawChannel rgb c)
  adj c - tripleChannel (paletteRgb P (nearestColor P (adj .red) (adj .green) (adj .blue))) c

/-- What DITHER_NEXT with residual `e` leaves in cell `(c, r, k)` (41_dither rules R122 to R125). -/
def Sys2Proof.diffusedCell (d : Dither) (e : Int) (c : Channel) (r : BitVec 1) (k : Nat) : Int :=
  let i := d.col.toNat
  let old := readErr d.err c r k
  if r = d.par ∧ k = i then 0
  else if d.w.toNat ≤ k then old
  else if r = d.par ∧ k = i + 1 then old + Int.tdiv (7 * e) 16
  else if r ≠ d.par ∧ k + 1 = i then old + Int.tdiv (3 * e) 16
  else if r ≠ d.par ∧ k = i then old + Int.tdiv (5 * e) 16
  else if r ≠ d.par ∧ k = i + 1 then old + Int.tdiv (1 * e) 16
  else old

/-- What a residual loses in its four pushes (41_dither rule R132). -/
def Sys2Proof.truncationLoss (e : Int) : Int :=
  e - (pushAmount 7 e + pushAmount 3 e + pushAmount 5 e + pushAmount 1 e)

/-- `send_command` as the step tables of 44_protocol_sequences write it. -/
def Sys2Proof.specCommand (b : Byte) : List Action := [.dcSet .low, .wireWrite (.bytes [b])]

/-- A (command, data) pair as the step tables write it. -/
def Sys2Proof.specPair (b : Byte) (d : List Byte) : List Action :=
  specCommand b ++ [.dcSet .high, .wireWrite (.bytes d)]

/-- Steps W0 to W45 (44_protocol_sequences rule R183), written from its table; with item 3 absent (rule
R182, 92_eei_decisions D8), the same without W13 to W16. -/
def Sys2Proof.specWakeup (c : Config) : List Action :=
  [.rstSet .low, .delayMs 1, .rstSet .high, .delayMs 200, .waitBusy .idle] ++
    specPair 0x00 c.panelSetData ++ specPair 0x01 c.powerSetData ++
    (if c.powerOffSeqPresent then specPair 0x03 c.powerOffSeqData else []) ++
    specPair 0x06 c.boosterData ++
    specPair 0x41 c.tempSensorData ++ specPair 0x50 c.vcomData ++ specPair 0x60 [0x20] ++
    specPair 0x61 [0x02, 0x58, 0x01, 0xC0] ++ specPair 0xE3 [0xAA] ++ [.delayMs 100] ++
    specPair 0x50 c.vcomData

/-- Steps D0 to D17 (rule R186), written from its table. -/
def Sys2Proof.specTransfer : List Action :=
  specPair 0x61 [0x02, 0x58, 0x01, 0xC0] ++ specCommand 0x10 ++
    [.dcSet .high, .wireWrite .framebuffer] ++ specCommand 0x04 ++ [.waitBusy .busy] ++
    specCommand 0x12 ++ [.waitBusy .busy] ++ specCommand 0x04 ++ [.waitBusy .idle, .delayMs 200]

/-- Steps S0 to S7 (rule R184), written from its table. -/
def Sys2Proof.specSleep : List Action :=
  [.delayMs 10] ++ specPair 0x07 [0xA5] ++ [.delayMs 100, .rstSet .low, .dcSet .low]

/-- A property that every step keeps. -/
def Sys2Proof.KeptByEveryStep (inv : State → Prop) : Prop :=
  ∀ s t, inv s → step s = .next t → inv t

/-! ### Encoding -/

/-- 30_encoding rules R81, R82, R85, R90: no bit of an encoding is dropped. -/
def Obligations.EncodedInstrDecodesToItself : Prop :=
  ∀ i : Instr, decode (encode i) = .ok i

/-- 30_encoding rules R81, R82: each operation gets the fields it names from their bits, whatever the
other fields hold; DITHER_NEW takes its width from the bits of `x`. -/
def Obligations.FieldsReachTheirOperands : Prop :=
  ∀ (w : Hcw) (x y : Coord) (color : Code) (rgb : Rgb24),
    x = w.extractLsb' 44 16 → y = w.extractLsb' 28 16 → color = w.extractLsb' 24 4 →
    rgb = w.extractLsb' 0 24 →
    (w.extractLsb' 60 4 = 0x0 → decodeHost w = .ok .new) ∧
    (w.extractLsb' 60 4 = 0x1 → decodeHost w = .ok (.setPixel x y color)) ∧
    (w.extractLsb' 60 4 = 0x2 → decodeHost w = .ok (.setPixelRgb x y rgb)) ∧
    (w.extractLsb' 60 4 = 0x3 → decodeHost w = .ok (.getPixel x y)) ∧
    (w.extractLsb' 60 4 = 0x4 → decodeHost w = .ok .clear) ∧
    (w.extractLsb' 60 4 = 0x5 → decodeHost w = .ok .init) ∧
    (w.extractLsb' 60 4 = 0x6 → decodeHost w = .ok .display) ∧
    (w.extractLsb' 60 4 = 0x8 → decodeHost w = .ok (.nearest rgb)) ∧
    (w.extractLsb' 60 4 = 0x9 → decodeHost w = .ok (.toRgb color)) ∧
    (w.extractLsb' 60 4 = 0xA → decodeHost w = .ok (.ditherNew x)) ∧
    (w.extractLsb' 60 4 = 0xB → decodeHost w = .ok (.ditherNext rgb))

/-- 30_encoding rules R85, R90: the opcode bytes that name a panel command are exactly the thirteen. -/
def Obligations.ThirteenOpcodesDecode : Prop :=
  ∀ (b : Byte) (i : Instr), decodeWire b = .ok i ↔
    (b, i) ∈ ([(0x00, .panelSet), (0x01, .powerSet), (0x03, .powerOffSeqSet), (0x04, .powerOff),
      (0x06, .boosterSoftstart), (0x07, .deepSleep), (0x10, .dataStart), (0x12, .displayRefresh),
      (0x41, .tempSensorEn), (0x50, .vcomDataInterval), (0x60, .vendor60),
      (0x61, .resolutionSet), (0xE3, .vendorTuningE3)] : List (Byte × Instr))

/-- 95_test_vectors V2, V3, V4: words written out in the spec decode to the instructions they stand
for. -/
def Obligations.SampleWordsDecode : Prop :=
  decodeHost 0x1025701BF6000000 = .ok (.setPixel 599 447 6) ∧
    decodeHost 0x2000300000FF4000 = .ok (.setPixelRgb 3 0 0xFF4000) ∧
    decodeHost 0x3000500050000000 = .ok (.getPixel 5 5) ∧
    decodeHost 0x9000000006000000 = .ok (.toRgb 6) ∧
    decodeHost 0xA025800000000000 = .ok (.ditherNew 600) ∧
    decodeHost 0xB000000000646464 = .ok (.ditherNext 0x646464) ∧
    decodeWire 0x12 = .ok .displayRefresh

/-! ### The host port -/

/-- 30_encoding rule R91: `op` 0x7 and 0xC to 0xF have no step, and neither has a `color` of 0x7 to 0xF
in SET_PIXEL or TO_RGB, at the port and in the operations themselves. -/
def Obligations.UndefinedInputsAreRefused : Prop :=
  (∀ (s : State) (w : Hcw) (rest : List Hcw), s.hwReset = false → s.run = .idle →
    s.host = w :: rest → (w.opField = 0x7 ∨ 0xC ≤ w.opField.toNat) →
    step s = .refused (.undefinedOp w.opField)) ∧
  (∀ (s : State) (w : Hcw) (rest : List Hcw), s.hwReset = false → s.run = .idle →
    s.host = w :: rest → (w.opField = 0x1 ∨ w.opField = 0x9) → 7 ≤ w.colorField.toNat →
    step s = .refused (.illegalColor w.colorField)) ∧
  (∀ (x y : Coord) (color : Code) (s : State), MayRun .setPixel s → 7 ≤ color.toNat →
    exec (.setPixel x y color) s = .refused (.illegalColor color)) ∧
  (∀ (color : Code) (s : State), MayRun .toRgb s → 7 ≤ color.toNat →
    exec (.toRgb color) s = .refused (.illegalColor color))

/-- 46_driver rule R221, 10_state rule R20: a word with a meaning is accepted in one step, which loads
every latch from its bits and starts its operation; the step after it runs the decoded instruction. -/
def Obligations.PortAcceptsAWord : Prop :=
  ∀ (s : State) (w : Hcw) (rest : List Hcw) (i : Instr), s.hwReset = false → s.run = .idle →
    s.host = w :: rest → decodeHost w = .ok i → i.wellFormed = true →
    (∀ rgb, i = .ditherNext rgb → s.dither.valid = true) →
    ∃ t op, step s = .next t ∧ t.run = .busy op 0 ∧ hostOpOf i = some op ∧ t.host = rest ∧
      t.latches.op = w.extractLsb' 60 4 ∧ t.latches.x = w.extractLsb' 44 16 ∧
      t.latches.y = w.extractLsb' 28 16 ∧ t.latches.color = w.extractLsb' 24 4 ∧
      t.latches.rgb = w.extractLsb' 0 24 ∧ t.latches.w = w.extractLsb' 44 16 ∧
      t.resp.valid = false ∧ t.fb = s.fb ∧ t.dither = s.dither ∧ t.sess = s.sess ∧
      t.rstOut = s.rstOut ∧ t.dcOut = s.dcOut ∧ t.polls = s.polls ∧ t.trace = s.trace ∧
      t.answers = s.answers ∧ t.cfg = s.cfg ∧ step t = exec i t

/-- A step runs the decoded instruction: with no reset asserted, a step in the middle of an operation is
`exec` of the instruction fetched for its position. -/
def Obligations.StepRunsTheFetchedInstruction : Prop :=
  ∀ (s : State) (op : HostOp) (pc : Nat) (i : Instr), s.hwReset = false → s.run = .busy op pc →
    s.fetchAt op pc = .ok i → step s = exec i s

/-- Between operations, with nothing presented, nothing happens: the model's choice, log entry 1. -/
def Obligations.IdlePortWaits : Prop :=
  ∀ s : State, s.hwReset = false → s.run = .idle → s.host = [] → step s = .next s

/-- 46_driver rule R220: while an operation is in progress a step neither takes a word from the host nor
depends on the words the host has. -/
def Obligations.BusyStepIgnoresTheHost : Prop :=
  ∀ (s t : State) (words : List Hcw), s.hwReset = false → s.run ≠ .idle → step s = .next t →
    t.host = s.host ∧ step { s with host := words } = .next { t with host := words }

/-- 46_driver rule R220, 95_test_vectors V6.12: while one host operation is in progress another has no
effect. -/
def Obligations.OtherOperationIsTurnedAway : Prop :=
  ∀ (s : State) (i : Instr) (op op' : HostOp) (pc : Nat), hostOpOf i = some op →
    s.run = .busy op' pc → op' ≠ op → exec i s = .next s

/-! ### Palette quantizer -/

/-- 40_palette rule R112: NEAREST (`op` 0x8) answers the colour of least squared distance, the one declared
first among equals; every colour declared before it is strictly farther. It writes no state. -/
def Obligations.NearestAnswersTheNearestColor : Prop :=
  (∀ w : Hcw, w.extractLsb' 60 4 = 0x8 → decodeHost w = .ok (.nearest (w.extractLsb' 0 24))) ∧
  ∀ (rgb : Rgb24) (s : State), MayRun .nearest s →
    ∃ t q, exec (.nearest rgb) s = .next t ∧ Responded t .ok ∧ t.resp.color = colorCode q ∧
      (∀ p : PaletteColor,
        distanceTo s.cfg.palette rgb q ≤ distanceTo s.cfg.palette rgb p ∧
        ((colorCode p).toNat < (colorCode q).toNat →
          distanceTo s.cfg.palette rgb q < distanceTo s.cfg.palette rgb p)) ∧
      t.fb = s.fb ∧ t.dither = s.dither ∧ SameOutside s t

/-- 40_palette rule R114: for a table of pairwise distinct triples, NEAREST of a colour's triple is that
colour, and NEAREST after TO_RGB after NEAREST is NEAREST; for any table, NEAREST of a colour's triple is
the colour declared first among those with that triple. -/
def Obligations.NearestOfAPaletteTripleIsItself : Prop :=
  ∀ (P : Palette),
    (paletteDistinct P = true →
      (∀ p : PaletteColor, nearestOfRgb P (packRgb (paletteRgb P p)) = p) ∧
      (∀ rgb : Rgb24, nearestOfRgb P (packRgb (paletteRgb P (nearestOfRgb P rgb))) =
        nearestOfRgb P rgb)) ∧
    (∀ p : PaletteColor,
      paletteRgb P (nearestOfRgb P (packRgb (paletteRgb P p))) = paletteRgb P p ∧
      ∀ p' : PaletteColor, paletteRgb P p' = paletteRgb P p →
        (colorCode (nearestOfRgb P (packRgb (paletteRgb P p)))).toNat ≤ (colorCode p').toNat)

/-- 40_palette rule R113: TO_RGB (`op` 0x9) answers the triple of the colour with that code and writes no
state; a code of 0x7 to 0xF is refused. -/
def Obligations.ToRgbAnswersTheTriple : Prop :=
  (∀ w : Hcw, w.extractLsb' 60 4 = 0x9 → decodeHost w = .ok (.toRgb (w.extractLsb' 24 4))) ∧
  (∀ (color : Code) (s : State), MayRun .toRgb s → 7 ≤ color.toNat →
    exec (.toRgb color) s = .refused (.illegalColor color)) ∧
  ∀ (p : PaletteColor) (s : State), MayRun .toRgb s →
    ∃ t, exec (.toRgb (colorCode p)) s = .next t ∧ Responded t .ok ∧
      t.resp.rgb.extractLsb' 16 8 = (paletteRgb s.cfg.palette p).r ∧
      t.resp.rgb.extractLsb' 8 8 = (paletteRgb s.cfg.palette p).g ∧
      t.resp.rgb.extractLsb' 0 8 = (paletteRgb s.cfg.palette p).b ∧
      t.fb = s.fb ∧ t.dither = s.dither ∧ SameOutside s t

/-! ### Dither engine -/

/-- 41_dither rule R121: DITHER_NEW (`op` 0xA, width in `x`) of a width 1 to 600 starts a fresh engine, all
cells 0; of any other width it is refused. That a cell at a column at or past the width is 0 as well is
the model's choice, log entry 15 (10_state rule R40). -/
def Obligations.DitherNewStartsAFreshEngine : Prop :=
  (∀ w : Hcw, w.extractLsb' 60 4 = 0xA → decodeHost w = .ok (.ditherNew (w.extractLsb' 44 16))) ∧
  ∀ (w : Coord) (s : State), MayRun .ditherNew s →
    (1 ≤ w.toNat ∧ w.toNat ≤ 600 →
      ∃ t, exec (.ditherNew w) s = .next t ∧ Responded t .ok ∧ t.dither.valid = true ∧
        t.dither.w = w ∧ t.dither.col = 0 ∧ t.dither.par = 0 ∧
        (∀ c r k, readErr t.dither.err c r k = 0) ∧ t.fb = s.fb ∧ SameOutside s t) ∧
    (w.toNat = 0 ∨ 600 < w.toNat → exec (.ditherNew w) s = .refused (.badRowWidth w))

/-- 41_dither rule R122, steps 1 and 3, and the position: DITHER_NEXT answers the colour nearest to the
pixel plus its cell, each channel clamped to 0 .. 255, and moves to the next column, or to column 0 of
the next row after the last. -/
def Obligations.DitherNextAnswersNearestAdjusted : Prop :=
  ∀ (rgb : Rgb24) (s : State), MayRun .ditherNext s → s.dither.valid = true →
    s.dither.col.toNat < s.dither.w.toNat →
    ∃ t, exec (.ditherNext rgb) s = .next t ∧ Responded t .ok ∧
      t.resp.color = colorCode (nearestColor s.cfg.palette
        (clampedChannel s.dither .red (rgb.extractLsb' 16 8).toNat)
        (clampedChannel s.dither .green (rgb.extractLsb' 8 8).toNat)
        (clampedChannel s.dither .blue (rgb.extractLsb' 0 8).toNat)) ∧
      t.dither.valid = true ∧ t.dither.w = s.dither.w ∧
      (s.dither.col.toNat + 1 = s.dither.w.toNat →
        t.dither.col = 0 ∧ t.dither.par ≠ s.dither.par) ∧
      (s.dither.col.toNat + 1 < s.dither.w.toNat →
        t.dither.col.toNat = s.dither.col.toNat + 1 ∧ t.dither.par = s.dither.par) ∧
      t.fb = s.fb ∧ SameOutside s t

/-- 41_dither rules R122 to R125, steps 2, 4 and 5: the consumed cell is 0, and each of the four targets
inside the row has gained its share, truncated toward zero, of the residual (the adjusted channel less
the chosen colour's); every other cell is as it was. -/
def Obligations.DitherNextDiffusesTheResidual : Prop :=
  ∀ (rgb : Rgb24) (s t : State) (c : Channel) (r : BitVec 1) (k : Nat), MayRun .ditherNext s →
    s.dither.valid = true → s.dither.col.toNat < s.dither.w.toNat →
    sparseWf 0 s.dither.err = true → exec (.ditherNext rgb) s = .next t →
    readErr t.dither.err c r k =
      diffusedCell s.dither (residualOf s.cfg.palette s.dither rgb c) c r k

/-- 41_dither rule R122: DITHER_NEXT before any DITHER_NEW is refused, at the port and in itself. -/
def Obligations.DitherNextNeedsAnEngine : Prop :=
  (∀ (rgb : Rgb24) (s : State), MayRun .ditherNext s → s.dither.valid = false →
    exec (.ditherNext rgb) s = .refused .ditherNotStarted) ∧
  (∀ (s : State) (w : Hcw) (rest : List Hcw), s.hwReset = false → s.run = .idle →
    s.host = w :: rest → w.opField = 0xB → s.dither.valid = false →
    step s = .refused .ditherNotStarted)

/-- 41_dither rule R130, 10_state rules R30, R31: every step keeps every cell within what its pushes can
add up to, 252 at most, visited cells 0, and the position inside its row. -/
def Obligations.DitherBoundsAreKept : Prop :=
  KeptByEveryStep fun s => DitherInv s ∧ MemoryWf s

/-- 41_dither rule R131: while every cell is 0, a pixel that is exactly a palette triple answers that
colour and leaves every cell 0. -/
def Obligations.ExactPaletteStreamKeepsZeroError : Prop :=
  ∀ (p : PaletteColor) (s : State), MayRun .ditherNext s → s.dither.valid = true →
    s.dither.col.toNat < s.dither.w.toNat → sparseWf 0 s.dither.err = true →
    paletteDistinct s.cfg.palette = true → (∀ c r k, readErr s.dither.err c r k = 0) →
    ∃ t, exec (.ditherNext (packRgb (paletteRgb s.cfg.palette p))) s = .next t ∧
      Responded t .ok ∧ t.resp.color = colorCode p ∧ t.dither.valid = true ∧
      (∀ c r k, readErr t.dither.err c r k = 0)

/-- 41_dither rule R132: the four pushes of a residual add up to it less a loss of 0 to 3 toward zero. -/
def Obligations.DiffusionLosesAtMostThree : Prop :=
  ∀ e : Int,
    (0 ≤ e → 0 ≤ truncationLoss e ∧ truncationLoss e ≤ 3) ∧
    (e < 0 → -3 ≤ truncationLoss e ∧ truncationLoss e ≤ 0)

/-! ### Framebuffer pixel encoder -/

/-- 42_framebuffer rule R142: SET_PIXEL (`op` 0x1) with an illegal code is refused, out of bounds it raises
`PixelOutOfBounds`, and in bounds it writes the code to its pixel, keeps the other nibble of the byte, and
stores to no other byte. -/
def Obligations.SetPixelWritesOneNibble : Prop :=
  (∀ w : Hcw, w.extractLsb' 60 4 = 0x1 → decodeHost w =
    .ok (.setPixel (w.extractLsb' 44 16) (w.extractLsb' 28 16) (w.extractLsb' 24 4))) ∧
  (∀ (x y : Coord) (color : Code) (s : State), MayRun .setPixel s → 7 ≤ color.toNat →
    exec (.setPixel x y color) s = .refused (.illegalColor color)) ∧
  (∀ (x y : Coord) (color : Code) (s : State), MayRun .setPixel s → color.toNat ≤ 6 →
    (600 ≤ x.toNat ∨ 448 ≤ y.toNat) → ∃ t, exec (.setPixel x y color) s = .next t ∧
      Responded t .pixelOutOfBounds ∧ t.fb = s.fb ∧ t.dither = s.dither ∧ SameOutside s t) ∧
  ∀ (x y : Coord) (color : Code) (s : State), MayRun .setPixel s → MemoryWf s →
    color.toNat ≤ 6 → x.toNat < 600 → y.toNat < 448 →
    ∃ t, exec (.setPixel x y color) s = .next t ∧ Responded t .ok ∧
      ((x.toNat % 2 = 0 ↔ s.cfg.nibbleOrder = .evenHigh) →
        hi4 (readByte t.fb (pixelAddr x y)) = color ∧
        lo4 (readByte t.fb (pixelAddr x y)) = lo4 (readByte s.fb (pixelAddr x y))) ∧
      (¬(x.toNat % 2 = 0 ↔ s.cfg.nibbleOrder = .evenHigh) →
        lo4 (readByte t.fb (pixelAddr x y)) = color ∧
        hi4 (readByte t.fb (pixelAddr x y)) = hi4 (readByte s.fb (pixelAddr x y))) ∧
      (∀ a, a ≠ pixelAddr x y → readByte t.fb a = readByte s.fb a) ∧
      t.dither = s.dither ∧ SameOutside s t

/-- 42_framebuffer rule R145: GET_PIXEL after SET_PIXEL returns the code written, and every other pixel
returns what it returned before, under either nibble order. -/
def Obligations.PixelReadsBack : Prop :=
  ∀ (x y : Coord) (color : Code) (s t : State), s.run = .idle → MemoryWf s →
    color.toNat ≤ 6 → x.toNat < 600 → y.toNat < 448 →
    exec (.setPixel x y color) s = .next t →
    (∃ u, exec (.getPixel x y) t = .next u ∧ Responded u .ok ∧ u.resp.color = color) ∧
    (∀ x' y' : Coord, x'.toNat < 600 → y'.toNat < 448 → (x' ≠ x ∨ y' ≠ y) →
      ∃ u v, exec (.getPixel x' y') t = .next u ∧ exec (.getPixel x' y') s = .next v ∧
        u.resp.color = v.resp.color)

/-- 42_framebuffer rule R141, 60_exceptions rule R247: out of bounds, each of the three pixel operations
ends with `PixelOutOfBounds` and changes nothing else. -/
def Obligations.OutOfBoundsPixelChangesNothing : Prop :=
  ∀ (x y : Coord) (s : State), (600 ≤ x.toNat ∨ 448 ≤ y.toNat) →
    (∀ color : Code, color.toNat ≤ 6 → MayRun .setPixel s →
      ∃ t, exec (.setPixel x y color) s = .next t ∧ Responded t .pixelOutOfBounds ∧
        t.fb = s.fb ∧ t.dither = s.dither ∧ SameOutside s t) ∧
    (∀ rgb : Rgb24, MayRun .setPixelRgb s →
      ∃ t, exec (.setPixelRgb x y rgb) s = .next t ∧ Responded t .pixelOutOfBounds ∧
        t.fb = s.fb ∧ t.dither = s.dither ∧ SameOutside s t) ∧
    (MayRun .getPixel s →
      ∃ t, exec (.getPixel x y) s = .next t ∧ Responded t .pixelOutOfBounds ∧
        t.fb = s.fb ∧ t.dither = s.dither ∧ SameOutside s t)

/-- 42_framebuffer rule R143: out of bounds SET_PIXEL_RGB (`op` 0x2) raises `PixelOutOfBounds`; in bounds it
writes the code NEAREST answers for its operand, which is what SET_PIXEL with that code does. -/
def Obligations.SetPixelRgbIsNearestThenSetPixel : Prop :=
  (∀ w : Hcw, w.extractLsb' 60 4 = 0x2 → decodeHost w =
    .ok (.setPixelRgb (w.extractLsb' 44 16) (w.extractLsb' 28 16) (w.extractLsb' 0 24))) ∧
  ∀ (x y : Coord) (rgb : Rgb24) (s : State), MayRun .setPixelRgb s →
    ((600 ≤ x.toNat ∨ 448 ≤ y.toNat) → ∃ t, exec (.setPixelRgb x y rgb) s = .next t ∧
      Responded t .pixelOutOfBounds ∧ t.fb = s.fb ∧ t.dither = s.dither ∧ SameOutside s t) ∧
    (x.toNat < 600 → y.toNat < 448 → MemoryWf s →
      ∃ t n code, exec (.setPixelRgb x y rgb) s = .next t ∧ Responded t .ok ∧
        exec (.nearest rgb) { s with run := .idle } = .next n ∧ n.resp.color = code ∧
        exec (.setPixel x y code) { s with run := .idle } = .next t ∧
        getNibble s.cfg.nibbleOrder x (readByte t.fb (pixelAddr x y)) = code ∧
        (∀ a, a ≠ pixelAddr x y → readByte t.fb a = readByte s.fb a) ∧
        t.dither = s.dither ∧ SameOutside s t)

/-- 42_framebuffer rule R144: out of bounds GET_PIXEL (`op` 0x3) raises `PixelOutOfBounds`; in bounds it
answers the nibble of its pixel and writes nothing. -/
def Obligations.GetPixelAnswersTheNibble : Prop :=
  (∀ w : Hcw, w.extractLsb' 60 4 = 0x3 →
    decodeHost w = .ok (.getPixel (w.extractLsb' 44 16) (w.extractLsb' 28 16))) ∧
  (∀ (x y : Coord) (s : State), MayRun .getPixel s → (600 ≤ x.toNat ∨ 448 ≤ y.toNat) →
    ∃ t, exec (.getPixel x y) s = .next t ∧ Responded t .pixelOutOfBounds ∧
      t.fb = s.fb ∧ t.dither = s.dither ∧ SameOutside s t) ∧
  ∀ (x y : Coord) (s : State), MayRun .getPixel s → x.toNat < 600 → y.toNat < 448 →
    ∃ t, exec (.getPixel x y) s = .next t ∧ Responded t .ok ∧
      t.resp.color = (if (x.toNat % 2 = 0 ↔ s.cfg.nibbleOrder = .evenHigh)
        then hi4 (readByte s.fb (x.toNat / 2 + y.toNat * 300))
        else lo4 (readByte s.fb (x.toNat / 2 + y.toNat * 300))) ∧
      t.fb = s.fb ∧ t.dither = s.dither ∧ SameOutside s t

/-- 42_framebuffer rule R146: CLEAR (`op` 0x4) makes every byte 0x11 and every in-range GET_PIXEL answer
WHITE, and touches nothing else. -/
def Obligations.ClearMakesEveryPixelWhite : Prop :=
  (∀ w : Hcw, w.extractLsb' 60 4 = 0x4 → decodeHost w = .ok .clear) ∧
  ∀ s : State, MayRun .clear s →
    ∃ t, exec .clear s = .next t ∧ Responded t .ok ∧ (∀ a, readByte t.fb a = 0x11) ∧
      (∀ x y : Coord, x.toNat < 600 → y.toNat < 448 →
        ∃ u, exec (.getPixel x y) t = .next u ∧ u.resp.color = colorCode .white) ∧
      t.dither = s.dither ∧ SameOutside s t

/-- 20_memory rules R51, R53: in-range pixels and nibbles of the 134400 bytes correspond one to one. -/
def Obligations.PixelMapIsABijection : Prop :=
  (∀ x y : Coord, x.toNat < 600 → y.toNat < 448 →
    pixelAddr x y = x.toNat / 2 + y.toNat * 300 ∧ pixelAddr x y ≤ pixelAddr 599 447 ∧
    pixelAddr x y < 134400) ∧
  (∀ a, a < 134400 → ∃ x y : Coord, x.toNat < 599 ∧ y.toNat < 448 ∧
    x.toNat = 2 * (a % 300) ∧ y.toNat = a / 300 ∧ pixelAddr x y = a ∧
    pixelAddr (x + 1) y = a ∧ inHighNibble .evenHigh x = true ∧
    inHighNibble .evenHigh (x + 1) = false) ∧
  (∀ x y x' y' : Coord, x.toNat < 600 → y.toNat < 448 → x'.toNat < 600 → y'.toNat < 448 →
    (pixelAddr x y = pixelAddr x' y' ↔ y = y' ∧ x.toNat / 2 = x'.toNat / 2)) ∧
  (∀ (o : NibbleOrder) (x y x' y' : Coord), x.toNat < 600 → y.toNat < 448 → x'.toNat < 600 →
    y'.toNat < 448 → pixelAddr x y = pixelAddr x' y' → inHighNibble o x = inHighNibble o x' →
    x = x' ∧ y = y')

/-- 10_state rule R21, 70_reset_and_hazards rule R281: every step keeps every nibble of the framebuffer a
palette code. -/
def Obligations.FramebufferStaysLegal : Prop :=
  KeptByEveryStep fun s => FbLegal s ∧ MemoryWf s

/-- Every step keeps both memories in canonical form, and the framebuffer inside 0 .. 134399. -/
def Obligations.MemoriesStayCanonical : Prop :=
  KeptByEveryStep MemoryWf

/-- 20_memory rules R56, R57; 45_panel_commands rule R206: the image is the 134400 bytes in ascending
order as stored, and in a legal framebuffer bits 7 and 3 of every byte are 0. -/
def Obligations.ImageIsTheFramebufferInOrder : Prop :=
  ∀ s : State, (imageBytes s.fb).length = 134400 ∧
    (∀ a, a < 134400 → (imageBytes s.fb)[a]? = some (readByte s.fb a)) ∧
    (FbLegal s → ∀ b ∈ imageBytes s.fb, b.getLsbD 7 = false ∧ b.getLsbD 3 = false)

/-! ### Reset and the driver -/

/-- 46_driver rule R222: NEW (`op` 0x0) gives the block its reset values with no I/O and answers `OK`. The
values of `d_w`, `d_col`, `d_par` and the cells, which the rule leaves unspecified, are not stated. That
the latches stay is the model's choice, log entry 4, drawn from 10_state rule R20. -/
def Obligations.NewResetsTheBlock : Prop :=
  (∀ w : Hcw, w.extractLsb' 60 4 = 0x0 → decodeHost w = .ok .new) ∧
  ∀ s : State, MayRun .new s →
    ∃ t, exec .new s = .next t ∧ Responded t .ok ∧ (∀ a, readByte t.fb a = 0x11) ∧
      t.sess = .unknown ∧ t.rstOut = none ∧ t.dcOut = none ∧ t.dither.valid = false ∧
      t.polls = 0 ∧ t.trace = s.trace ∧ t.answers = s.answers ∧ t.latches = s.latches ∧
      t.cfg = s.cfg ∧ t.host = s.host ∧ t.hwReset = s.hwReset

/-- 70_reset_and_hazards rule R270: the hardware reset has the effect of NEW on the elements of 10_state rule
R40 that NEW gives a value, whatever is in progress, with no trace event, and leaves the port ready. That
it is taken in one step ahead of everything, clears its own input and keeps the host's words and the
answers is the model's choice, log entry 18. -/
def Obligations.HardwareResetHasTheEffectOfNew : Prop :=
  ∀ s n : State, s.hwReset = true → exec .new { s with run := .idle } = .next n →
    ∃ t, step s = .next t ∧ t.run = .idle ∧ t.fb = n.fb ∧ t.sess = n.sess ∧
      t.rstOut = n.rstOut ∧ t.dcOut = n.dcOut ∧ t.run = n.run ∧ t.polls = n.polls ∧
      t.dither.valid = n.dither.valid ∧ t.trace = s.trace ∧ t.cfg = s.cfg ∧
      t.answers = s.answers ∧ t.host = s.host ∧ t.hwReset = false

/-- 10_state rule R40: the values the spec states for reset. -/
def Obligations.ResetStateHasTheSpecsValues : Prop :=
  (∀ a, readByte State.reset.fb a = 0x11) ∧ State.reset.sess = .unknown ∧
    State.reset.rstOut = none ∧ State.reset.dcOut = none ∧ State.reset.run = .idle ∧
    State.reset.polls = 0 ∧ State.reset.dither.valid = false ∧ State.reset.trace = []

/-- Every invariant that the other statements say each step keeps holds right after reset, under every
configuration. -/
def Obligations.InvariantsHoldAtReset : Prop :=
  ∀ c : Config, MemoryWf (State.resetWith c) ∧ FbLegal (State.resetWith c) ∧
    DitherInv (State.resetWith c) ∧ SequencerInv (State.resetWith c) ∧
    SelectLineInv (State.resetWith c) ∧ ResponseInv (State.resetWith c)

/-- 10_state rule R28: every step keeps the law that a response is valid only between operations. -/
def Obligations.ResponseIsValidOnlyBetweenOperations : Prop :=
  KeptByEveryStep ResponseInv

/-- 30_encoding rules R83, R84; 10_state rule R22: what the host reads, in every state. The response word
holds the status in bits 31:28, always one of the seven codes 0 to 6 and each the code of its kind, the
palette code in bits 27:24 and the triple in bits 23:0; `SESS` is 0, 1 or 2, never 3. -/
def Obligations.HostReadsStatusAndSession : Prop :=
  (∀ st : Status, (statusCode st, st) ∈ ([(0, .ok), (1, .resetPinFault), (2, .dataCommandPinFault),
    (3, .busyPinFault), (4, .wireFault), (5, .pixelOutOfBounds), (6, .panelTimeout)] :
      List (BitVec 4 × Status))) ∧
  ∀ s : State,
    s.rsp.extractLsb' 28 4 = statusCode s.resp.status ∧
    s.rsp.extractLsb' 24 4 = s.resp.color ∧ s.rsp.extractLsb' 0 24 = s.resp.rgb ∧
    (s.sessField, s.sess) ∈ ([(0, .unknown), (1, .awake), (2, .asleep)] :
      List (BitVec 2 × Session))

/-- 46_driver rule R221, 10_state rule R26: the step that ends an operation writes its response; any other
step of it leaves the response alone and stays at its position or moves one further. -/
def Obligations.OperationEndsWithItsResponse : Prop :=
  ∀ (s t : State) (op : HostOp) (pc : Nat), s.hwReset = false → s.run = .busy op pc →
    step s = .next t →
    (t.run = .idle → t.resp.valid = true) ∧
    (∀ op' pc', t.run = .busy op' pc' →
      op' = op ∧ (pc' = pc ∨ pc' = pc + 1) ∧ t.resp = s.resp ∧ isPanelOp op = true)

/-- 46_driver rule R224: the palette, dither and framebuffer operations and NEW make no trace event and
ask nothing of the environment, and all but NEW leave the session and the pin shadows. -/
def Obligations.OnlyPanelOperationsReachThePanel : Prop :=
  ∀ (i : Instr) (op : HostOp) (s t : State), hostOpOf i = some op → isPanelOp op = false →
    exec i s = .next t →
    t.trace = s.trace ∧ t.answers = s.answers ∧
    (op ≠ .new → t.sess = s.sess ∧ t.rstOut = s.rstOut ∧ t.dcOut = s.dcOut ∧ t.polls = s.polls)

/-- 46_driver rule R224, 20_memory rule R61: no step of INIT, DISPLAY or a panel command changes the
framebuffer, the dither state, the latches or the configuration. -/
def Obligations.PanelOperationsLeaveTheMemories : Prop :=
  ∀ (i : Instr) (s t : State), (∀ op, hostOpOf i = some op → isPanelOp op = true) →
    exec i s = .next t → SameMemories s t

/-- 10_state rules R33, R42; 00_scope rule R15: no step writes the configuration, on which the step lists
and the palette depend, and a step only adds to the trace. -/
def Obligations.ConfigurationIsFixedAndTraceGrows : Prop :=
  ∀ s t : State, step s = .next t → t.cfg = s.cfg ∧ ∃ es, t.trace = s.trace ++ es ∧ es.length ≤ 1

/-! ### Panel protocol primitives -/

/-- 44_protocol_sequences rules R185, R187; 46_driver rule R221: INIT and DISPLAY take a step, which leaves
one event, from their start and from every position of their list, whatever the environment answers. -/
def Obligations.PanelOperationsStepFromEveryPosition : Prop :=
  ∀ (s : State) (pc : Nat),
    ((s.run = .busy .init pc ∨ s.run = .idle ∧ pc = 0) → pc < (stepList s.cfg .init).length →
      ∃ t e, exec .init s = .next t ∧ t.trace = s.trace ++ [e] ∧ SameMemories s t) ∧
    ((s.run = .busy .display pc ∨ s.run = .idle ∧ pc = 0) →
      pc < (stepList s.cfg .display).length →
      ∃ t e, exec .display s = .next t ∧ t.trace = s.trace ++ [e] ∧ SameMemories s t)

/-- 43_protocol_primitives rule R160: a `RstSet` step drives the reset line, or ends the operation with
`ResetPinFault` and the shadow unchanged. -/
def Obligations.RstSetStep : Prop :=
  ∀ (s : State) (op : HostOp) (pc : Nat) (l : Level), StepAt s op pc (.rstSet l) →
    ∃ t, exec (s.latched op) s = .next t ∧ t.answers = s.takeAnswer.answers ∧
      (∀ b, s.nextAnswer = .success b →
        t.trace = s.trace ++ [.rstSet l .ok] ∧ t.rstOut = some l ∧ t.dcOut = s.dcOut ∧
        Completed s t op pc s.polls ∧ SameMemories s t) ∧
      (∀ info d, s.nextAnswer = .fault info d →
        t.trace = s.trace ++ [.rstSet l (.fault info)] ∧ Aborted s t .resetPinFault ∧
        t.resp.info = info)

/-- 43_protocol_primitives rule R161: a `DcSet` step drives the select line, also when it is at that level
already, or ends the operation with `DataCommandPinFault`. -/
def Obligations.DcSetStep : Prop :=
  ∀ (s : State) (op : HostOp) (pc : Nat) (l : Level), StepAt s op pc (.dcSet l) →
    ∃ t, exec (s.latched op) s = .next t ∧ t.answers = s.takeAnswer.answers ∧
      (∀ b, s.nextAnswer = .success b →
        t.trace = s.trace ++ [.dcSet l .ok] ∧ t.dcOut = some l ∧ t.rstOut = s.rstOut ∧
        Completed s t op pc s.polls ∧ SameMemories s t) ∧
      (∀ info d, s.nextAnswer = .fault info d →
        t.trace = s.trace ++ [.dcSet l (.fault info)] ∧ Aborted s t .dataCommandPinFault ∧
        t.resp.info = info)

/-- 43_protocol_primitives rule R162: a `WireWrite` step writes all its bytes in order, or ends the
operation with `WireFault`, some prefix of them having reached the panel. -/
def Obligations.WireWriteStep : Prop :=
  ∀ (s : State) (op : HostOp) (pc : Nat) (src : WireSource), StepAt s op pc (.wireWrite src) →
    ∃ t, exec (s.latched op) s = .next t ∧ t.answers = s.takeAnswer.answers ∧
      (∀ b, s.nextAnswer = .success b →
        t.trace = s.trace ++ [.wireWrite (s.sourceBytes src) .ok] ∧ t.rstOut = s.rstOut ∧
        t.dcOut = s.dcOut ∧ Completed s t op pc s.polls ∧ SameMemories s t) ∧
      (∀ info d, s.nextAnswer = .fault info d → ∃ sent rest,
        s.sourceBytes src = sent ++ rest ∧ sent.length = min d (s.sourceBytes src).length ∧
        t.trace = s.trace ++ [.wireWrite (s.sourceBytes src) (.fault info sent)] ∧
        Aborted s t .wireFault ∧ t.resp.info = info)

/-- 43_protocol_primitives rule R165: a `DelayMs` step records its event, cannot fault, and asks the
environment nothing. -/
def Obligations.DelayStep : Prop :=
  ∀ (s : State) (op : HostOp) (pc n : Nat), StepAt s op pc (.delayMs n) →
    ∃ t, exec (s.latched op) s = .next t ∧ t.trace = s.trace ++ [.delayMs n] ∧
      t.answers = s.answers ∧ t.rstOut = s.rstOut ∧ t.dcOut = s.dcOut ∧
      Completed s t op pc s.polls ∧ SameMemories s t

/-- 43_protocol_primitives rules R163, R166: one sample of a wait completes the step at the awaited level,
ends in `PanelTimeout` at a configured limit, else leaves the position; a fault ends it in
`BusyPinFault`. -/
def Obligations.WaitSampleStep : Prop :=
  ∀ (s : State) (op : HostOp) (pc : Nat) (target : WaitTarget), StepAt s op pc (.waitBusy target) →
    ∃ t, exec (s.latched op) s = .next t ∧ t.answers = s.takeAnswer.answers ∧
      (∀ l, s.nextAnswer = .success l →
        t.trace = s.trace ++ [.busyRead (.level l)] ∧ t.rstOut = s.rstOut ∧ t.dcOut = s.dcOut ∧
        SameMemories s t ∧
        ((target = .idle ↔ l = s.cfg.busyIdle) → Completed s t op pc (s.polls + 1)) ∧
        (¬(target = .idle ↔ l = s.cfg.busyIdle) →
          t.polls = s.polls + 1 ∧
          ((∀ n, s.cfg.pollLimit = some n → s.polls + 1 < n) →
            t.run = s.run ∧ t.sess = s.sess ∧ t.resp = s.resp) ∧
          (∀ n, s.cfg.pollLimit = some n → n ≤ s.polls + 1 → Aborted s t .panelTimeout))) ∧
      (∀ info d, s.nextAnswer = .fault info d →
        t.trace = s.trace ++ [.busyRead (.fault info)] ∧ Aborted s t .busyPinFault ∧
        t.resp.info = info ∧ t.polls = s.polls)

/-- 60_exceptions rule R246: the first fault of any step aborts the operation at once with the kind of the
capability that failed; nothing done before is undone and no later step is begun. -/
def Obligations.FirstFaultAbortsTheOperation : Prop :=
  ∀ (s : State) (op : HostOp) (pc : Nat) (a : Action) (kind : Status) (info : Payload) (d : Nat),
    StepAt s op pc a → faultKind a = some kind → s.nextAnswer = .fault info d →
    ∃ t e, exec (s.latched op) s = .next t ∧ Aborted s t kind ∧ t.resp.info = info ∧
      t.polls = s.polls ∧ t.trace = s.trace ++ [e] ∧
      (∀ op' pc', t.run ≠ .busy op' pc')

/-- 43_protocol_primitives rule R166, 70_reset_and_hazards rule R273: with no limit configured a wait
whose level does not come goes on for any number of samples, and the operation never responds. -/
def Obligations.WaitCanHangForEver : Prop :=
  ∀ (n : Nat) (s : State) (op : HostOp) (pc : Nat) (target : WaitTarget) (l : Level),
    s.hwReset = false → StepAt s op pc (.waitBusy target) → s.cfg.pollLimit = none →
    l ≠ awaitedLevel s.cfg target → s.answers = List.replicate n (.success l) →
    ∃ t, stepTimes n s = .next t ∧ t.run = .busy op pc ∧ t.resp = s.resp ∧ t.sess = s.sess ∧
      t.polls = s.polls + n ∧ t.trace = s.trace ++ List.replicate n (.busyRead (.level l))

/-! ### Panel commands -/

/-- 45_panel_commands rules R200, R201, R202, R204, R208, R209: the six commands whose data the
configuration gives. -/
def Obligations.ConfiguredCommandsAreSent : Prop :=
  SendsWithData .panelSet PanelCmd.panelSet 0x00 (fun s => s.cfg.panelSetData) ∧
    SendsWithData .powerSet PanelCmd.powerSet 0x01 (fun s => s.cfg.powerSetData) ∧
    SendsWithData .powerOffSeqSet PanelCmd.powerOffSeqSet 0x03 (fun s => s.cfg.powerOffSeqData) ∧
    SendsWithData .boosterSoftstart PanelCmd.boosterSoftstart 0x06 (fun s => s.cfg.boosterData) ∧
    SendsWithData .tempSensorEn PanelCmd.tempSensorEn 0x41 (fun s => s.cfg.tempSensorData) ∧
    SendsWithData .vcomDataInterval PanelCmd.vcomDataInterval 0x50 (fun s => s.cfg.vcomData)

/-- 45_panel_commands rules R205, R210, R211, R212: the four commands whose data the document gives. -/
def Obligations.ConstantCommandsAreSent : Prop :=
  SendsWithData .deepSleep PanelCmd.deepSleep 0x07 (fun _ => [0xA5]) ∧
    SendsWithData .vendor60 PanelCmd.vendor60 0x60 (fun _ => [0x20]) ∧
    SendsWithData .resolutionSet PanelCmd.resolutionSet 0x61 (fun _ => [0x02, 0x58, 0x01, 0xC0]) ∧
    SendsWithData .vendorTuningE3 PanelCmd.vendorTuningE3 0xE3 (fun _ => [0xAA])

/-- 45_panel_commands rule R206: DATA_START is followed by the framebuffer in one write. -/
def Obligations.DataStartSendsTheImage : Prop :=
  SendsWithData .dataStart PanelCmd.dataStart 0x10 (fun s => imageBytes s.fb)

/-- 45_panel_commands rules R203, R207: the two commands without data, each followed by a wait. -/
def Obligations.DatalessCommandsAreSent : Prop :=
  SendsWithoutData .powerOff PanelCmd.powerOff 0x04 ∧
    SendsWithoutData .displayRefresh PanelCmd.displayRefresh 0x12

/-- 30_encoding rule R92: a panel command is sent only in the places the step lists give. That one asked for
elsewhere is refused is the model's choice, log entry 11. -/
def Obligations.CommandOutOfPlaceIsRefused : Prop :=
  ∀ (c : PanelCmd) (s : State),
    (∀ op pc k, s.run = .busy op pc → (stepList s.cfg op)[pc]? ≠ some (.command c k)) →
    exec c.instr s = .refused (.commandNotDue c)

/-- Where the sequencer is sending a panel command, the command's meaning, the panel operation's meaning
and the machine's step are the same step. -/
def Obligations.CommandStepIsTheOperationsStep : Prop :=
  ∀ (s : State) (op : HostOp) (pc : Nat) (c : PanelCmd) (k : Nat), s.hwReset = false →
    s.run = .busy op pc → (stepList s.cfg op)[pc]? = some (.command c k) →
    exec c.instr s = exec (s.latched op) s ∧ step s = exec c.instr s

/-! ### Panel protocol sequences -/

/-- 44_protocol_sequences rules R182 to R187, 92_eei_decisions D8: the step lists of INIT and DISPLAY,
action by action, with item 3 of the configuration present and without it. -/
def Obligations.StepListsAreTheSpecs : Prop :=
  ∀ c : Config,
    (initList c).map (entryAction c) = (specWakeup c ++ specSleep).map some ∧
    (displayList c).map (entryAction c) = (specWakeup c ++ specTransfer ++ specSleep).map some ∧
    (c.powerOffSeqPresent = true → (specWakeup c).length = 46 ∧ (initList c).length = 54 ∧
      (displayList c).length = 72) ∧
    (c.powerOffSeqPresent = false → (specWakeup c).length = 42 ∧ (initList c).length = 50 ∧
      (displayList c).length = 68)

/-- 45_panel_commands rule R213, 70_reset_and_hazards rule R285, 92_eei_decisions D8: the opcodes each
operation sends, in order, and the sums of its delays; without item 3 four steps fewer. -/
def Obligations.CommandCountsAndDelays : Prop :=
  ∀ c : Config,
    delaySum (initList c) = 411 ∧ delaySum (displayList c) = 611 ∧
    (c.powerOffSeqPresent = true →
      sentOpcodes (initList c) =
        [0x00, 0x01, 0x03, 0x06, 0x41, 0x50, 0x60, 0x61, 0xE3, 0x50, 0x07] ∧
      sentOpcodes (displayList c) =
        [0x00, 0x01, 0x03, 0x06, 0x41, 0x50, 0x60, 0x61, 0xE3, 0x50, 0x61, 0x10, 0x04, 0x12, 0x04,
          0x07]) ∧
    (c.powerOffSeqPresent = false →
      (initList c).length = 50 ∧ (displayList c).length = 68 ∧
      sentOpcodes (initList c) = [0x00, 0x01, 0x06, 0x41, 0x50, 0x60, 0x61, 0xE3, 0x50, 0x07] ∧
      sentOpcodes (displayList c) =
        [0x00, 0x01, 0x06, 0x41, 0x50, 0x60, 0x61, 0xE3, 0x50, 0x61, 0x10, 0x04, 0x12, 0x04, 0x07])

/-- 44_protocol_sequences rules R185, R188, R189: with item 3 present and no limit configured, INIT whose
actions all succeed and whose wait sees the idle level after `n` other samples ends `OK` after its 54
steps, the panel asleep, reset and select lines low, the memories as before, having sent its 11 commands. -/
def Obligations.InitCompletes : Prop :=
  ∀ (s : State) (n : Nat) (before after : List Answer),
    s.run = .busy .init 0 → s.cfg.powerOffSeqPresent = true → s.cfg.pollLimit = none →
    allSuccess before = true → before.length = 2 →
    allSuccess after = true → after.length = 46 →
    s.answers = before ++ waitAnswers s.cfg .idle n ++ after →
    ∃ t es, execTimes .init (54 + n) s = .next t ∧ Responded t .ok ∧ t.sess = .asleep ∧
      t.rstOut = some .low ∧ t.dcOut = some .low ∧ t.answers = [] ∧ SameMemories s t ∧
      t.trace = s.trace ++ es ∧ es.length = 54 + n ∧
      commandsOf (wireStream s.dcOut es) =
        [(0x00, s.cfg.panelSetData), (0x01, s.cfg.powerSetData), (0x03, s.cfg.powerOffSeqData),
          (0x06, s.cfg.boosterData), (0x41, s.cfg.tempSensorData), (0x50, s.cfg.vcomData),
          (0x60, [0x20]), (0x61, [0x02, 0x58, 0x01, 0xC0]), (0xE3, [0xAA]),
          (0x50, s.cfg.vcomData), (0x07, [0xA5])]

/-- 44_protocol_sequences rules R187, R188, R189: with item 3 present and no limit configured, DISPLAY
whose actions all succeed and whose four waits see their levels after `n1` to `n4` other samples ends
`OK` after its 72 steps, having sent its 16 commands, the image among them. -/
def Obligations.DisplayCompletes : Prop :=
  ∀ (s : State) (n1 n2 n3 n4 : Nat) (a1 a2 a3 a4 a5 : List Answer),
    s.run = .busy .display 0 → s.cfg.powerOffSeqPresent = true → s.cfg.pollLimit = none →
    allSuccess (a1 ++ a2 ++ a3 ++ a4 ++ a5) = true →
    a1.length = 2 → a2.length = 50 → a3.length = 2 → a4.length = 2 → a5.length = 6 →
    s.answers = a1 ++ waitAnswers s.cfg .idle n1 ++ a2 ++ waitAnswers s.cfg .busy n2 ++ a3 ++
      waitAnswers s.cfg .busy n3 ++ a4 ++ waitAnswers s.cfg .idle n4 ++ a5 →
    ∃ t es, execTimes .display (72 + n1 + n2 + n3 + n4) s = .next t ∧ Responded t .ok ∧
      t.sess = .asleep ∧ t.rstOut = some .low ∧ t.dcOut = some .low ∧ t.answers = [] ∧
      SameMemories s t ∧ t.trace = s.trace ++ es ∧ es.length = 72 + n1 + n2 + n3 + n4 ∧
      commandsOf (wireStream s.dcOut es) =
        [(0x00, s.cfg.panelSetData), (0x01, s.cfg.powerSetData), (0x03, s.cfg.powerOffSeqData),
          (0x06, s.cfg.boosterData), (0x41, s.cfg.tempSensorData), (0x50, s.cfg.vcomData),
          (0x60, [0x20]), (0x61, [0x02, 0x58, 0x01, 0xC0]), (0xE3, [0xAA]),
          (0x50, s.cfg.vcomData), (0x61, [0x02, 0x58, 0x01, 0xC0]), (0x10, imageBytes s.fb),
          (0x04, []), (0x12, []), (0x04, []), (0x07, [0xA5])]

/-- 10_state rule R26, 44_protocol_sequences rule R180: every step keeps the position inside its step list,
`Awake` exactly from the end of the wakeup on, and the session not `Awake` between operations. -/
def Obligations.SequencerStaysInItsList : Prop :=
  KeptByEveryStep SequencerInv

/-- 10_state rule R24: every step keeps the law that a byte is written only with the select line driven,
low for an opcode and high for data. -/
def Obligations.SelectLineIsDrivenBeforeWrites : Prop :=
  KeptByEveryStep SelectLineInv
end

