-- ==== Sys2Proof/Laws/Memory.lean ====
section
/-! SUPPORT. The laws of the sparse memories: read after write, and every operation keeps the canonical
form. -/

namespace Sys2Proof.Machine

@[simp] theorem sparseRead_nil {α : Type} {d : α} (a : Nat) : sparseRead d [] a = d := rfl

variable {α : Type} [DecidableEq α] {d : α}

/-- A memory in form from `lo` lists nothing below `lo`. -/
theorem sparseRead_below {m : List (Nat × α)} {lo a : Nat} (h : sparseWfFrom d lo m = true)
    (ha : a < lo) : sparseRead d m a = d := by
  induction m generalizing lo with
  | nil => rfl
  | cons c m ih =>
    obtain ⟨k, v⟩ := c
    simp only [sparseWfFrom, Bool.and_eq_true, decide_eq_true_eq] at h
    have hk : k ≠ a := by omega
    simpa [sparseRead, hk] using ih h.2 (by omega)

/-- The form from `lo` is a form from anything lower. -/
theorem sparseWfFrom_mono {m : List (Nat × α)} {lo lo' : Nat} (h : sparseWfFrom d lo m = true)
    (hl : lo' ≤ lo) : sparseWfFrom d lo' m = true := by
  cases m with
  | nil => rfl
  | cons c m =>
    obtain ⟨k, v⟩ := c
    simp only [sparseWfFrom, Bool.and_eq_true, decide_eq_true_eq] at h ⊢
    exact ⟨⟨by omega, h.1.2⟩, h.2⟩

/-- Reading what was written, in a memory in form. -/
theorem sparseRead_write_same_from {m : List (Nat × α)} {lo : Nat} (a : Nat) (v : α)
    (h : sparseWfFrom d lo m = true) : sparseRead d (sparseWrite d m a v) a = v := by
  induction m generalizing lo with
  | nil => by_cases hv : v = d <;> simp [sparseWrite, sparseRead, hv]
  | cons c m ih =>
    obtain ⟨k, u⟩ := c
    have h' := h
    simp only [sparseWfFrom, Bool.and_eq_true, decide_eq_true_eq] at h
    unfold sparseWrite
    split_ifs with h1 h2 h3 h4
    · subst h2
      exact sparseRead_below (lo := k) (by
        simp only [sparseWfFrom, Bool.and_eq_true, decide_eq_true_eq]
        exact ⟨⟨le_refl _, h.1.2⟩, h.2⟩) h1
    · simp [sparseRead]
    · subst h3; subst h4
      exact sparseRead_below h.2 (by omega)
    · simp [sparseRead]
    · simpa [sparseRead, h3] using ih h.2

/-- Reading elsewhere is not changed by a write, in any memory. -/
theorem sparseRead_write_other (m : List (Nat × α)) {a b : Nat} (v : α) (hab : b ≠ a) :
    sparseRead d (sparseWrite d m a v) b = sparseRead d m b := by
  induction m with
  | nil => by_cases hv : v = d <;> simp [sparseWrite, sparseRead, hv, Ne.symm hab]
  | cons c m ih =>
    obtain ⟨k, u⟩ := c
    unfold sparseWrite
    split_ifs with h1 h2 h3 h4
    · rfl
    · simp [sparseRead, Ne.symm hab]
    · subst h3; simp [sparseRead, Ne.symm hab]
    · subst h3; simp [sparseRead, Ne.symm hab]
    · simp [sparseRead, ih]

/-- A write keeps the form. -/
theorem sparseWfFrom_write {m : List (Nat × α)} {lo a : Nat} (v : α)
    (h : sparseWfFrom d lo m = true) (ha : lo ≤ a) :
    sparseWfFrom d lo (sparseWrite d m a v) = true := by
  induction m generalizing lo with
  | nil => by_cases hv : v = d <;> simp [sparseWrite, sparseWfFrom, hv, ha]
  | cons c m ih =>
    obtain ⟨k, u⟩ := c
    have h0 := h
    simp only [sparseWfFrom, Bool.and_eq_true, decide_eq_true_eq] at h
    unfold sparseWrite
    split_ifs with h1 h2 h3 h4
    · exact h0
    · simp only [sparseWfFrom, Bool.and_eq_true, decide_eq_true_eq]
      exact ⟨⟨ha, h2⟩, ⟨by omega, h.1.2⟩, h.2⟩
    · exact sparseWfFrom_mono h.2 (by omega)
    · subst h3
      simp only [sparseWfFrom, Bool.and_eq_true, decide_eq_true_eq]
      exact ⟨⟨ha, h4⟩, h.2⟩
    · simp only [sparseWfFrom, Bool.and_eq_true, decide_eq_true_eq]
      exact ⟨h.1, ih h.2 (by omega)⟩

/-- Every entry of a written memory is the written one or was there before. -/
theorem mem_sparseWrite {m : List (Nat × α)} {a : Nat} {v : α} {c : Nat × α}
    (h : c ∈ sparseWrite d m a v) : c = (a, v) ∨ c ∈ m := by
  induction m with
  | nil => by_cases hv : v = d <;> simp_all [sparseWrite]
  | cons e m ih =>
    obtain ⟨k, u⟩ := e
    unfold sparseWrite at h
    split_ifs at h <;> simp_all <;> tauto

theorem sparseWf_nil : sparseWf d ([] : List (Nat × α)) = true := rfl

theorem sparseWf_write {m : List (Nat × α)} (a : Nat) (v : α) (h : sparseWf d m = true) :
    sparseWf d (sparseWrite d m a v) = true := sparseWfFrom_write v h (Nat.zero_le a)

theorem sparseRead_write_same {m : List (Nat × α)} (a : Nat) (v : α) (h : sparseWf d m = true) :
    sparseRead d (sparseWrite d m a v) a = v := sparseRead_write_same_from a v h

/-! ### The framebuffer -/

theorem Memory.wf_nil : Memory.wf [] = true := rfl

theorem Memory.wf_sparse {m : List Host.Cell} (h : Memory.wf m = true) :
    sparseWf blankByte m = true := by
  simp only [Memory.wf, Bool.and_eq_true] at h; exact h.1

/-- A write inside the framebuffer keeps its form. -/
theorem Memory.wf_writeByte {m : List Host.Cell} {a : Nat} (v : Byte) (h : Memory.wf m = true)
    (ha : a < fbBytes) : Memory.wf (writeByte m a v) = true := by
  simp only [Memory.wf, Bool.and_eq_true, List.all_eq_true, decide_eq_true_eq] at h ⊢
  refine ⟨sparseWf_write a v h.1, fun c hc => ?_⟩
  rcases mem_sparseWrite hc with rfl | hm
  · exact ha
  · exact h.2 c hm

theorem readByte_writeByte_same {m : List Host.Cell} (a : Nat) (v : Byte) (h : Memory.wf m = true) :
    readByte (writeByte m a v) a = v := sparseRead_write_same a v (Memory.wf_sparse h)

theorem readByte_writeByte_other (m : List Host.Cell) {a b : Nat} (v : Byte) (h : b ≠ a) :
    readByte (writeByte m a v) b = readByte m b := sparseRead_write_other m v h

@[simp] theorem readByte_nil (a : Nat) : readByte [] a = blankByte := rfl

/-- The byte view has one byte for each address. -/
@[simp] theorem imageBytes_length (m : List Host.Cell) : (imageBytes m).length = fbBytes := by
  simp [imageBytes]

/-! ### The error buffer -/

/-- Different cells have different keys. -/
theorem errKey_inj {c c' : Channel} {r r' : BitVec 1} {k k' : Nat} :
    errKey c r k = errKey c' r' k' ↔ c = c' ∧ r = r' ∧ k = k' := by
  constructor
  · intro h
    have hr := r.isLt
    have hr' := r'.isLt
    unfold errKey at h
    have hc : channelIndex c < 3 := by cases c <;> decide
    have hc' : channelIndex c' < 3 := by cases c' <;> decide
    refine ⟨?_, BitVec.eq_of_toNat_eq (by omega), by omega⟩
    have : channelIndex c = channelIndex c' := by omega
    cases c <;> cases c' <;> simp_all [channelIndex]
  · rintro ⟨rfl, rfl, rfl⟩; rfl

@[simp] theorem readErr_nil (c : Channel) (r : BitVec 1) (k : Nat) : readErr [] c r k = 0 := rfl

theorem sparseWf_writeErr {m : List (Nat × Int)} (c : Channel) (r : BitVec 1) (k : Nat) (v : Int)
    (h : sparseWf 0 m = true) : sparseWf 0 (writeErr m c r k v) = true := sparseWf_write _ v h

theorem readErr_writeErr {m : List (Nat × Int)} (c c' : Channel) (r r' : BitVec 1) (k k' : Nat)
    (v : Int) (h : sparseWf 0 m = true) :
    readErr (writeErr m c r k v) c' r' k' =
      if c' = c ∧ r' = r ∧ k' = k then v else readErr m c' r' k' := by
  split_ifs with hk
  · obtain ⟨rfl, rfl, rfl⟩ := hk
    exact sparseRead_write_same _ v h
  · exact sparseRead_write_other m v fun e => hk (errKey_inj.mp e)

end Sys2Proof.Machine
end

