-- ==== Sys2Proof/Laws/Dither.lean ====
section
/-! SUPPORT. What each operation of the dither engine does to one cell of the error buffer, and that each
keeps the buffer's canonical form. -/

namespace Sys2Proof.Machine

/-- The targets are the non-zero entries of `KERNEL`, the middle column below the pixel itself (00_scope
rule R8, 41_dither rule R123). -/
theorem kernelTargets_eq_kernel : kernelTargets =
    kernel.zipIdx.flatMap fun row => row.1.zipIdx.filterMap fun entry =>
      if entry.1 = 0 then none else some ((entry.2 : Int) - 1, decide (row.2 = 1), entry.1) := by
  decide

/-- `KERNEL_HEIGHT` is the number of rows of `KERNEL` (00_scope rule R8). -/
theorem kernel_length : kernel.length = kernelHeight := rfl

/-- The row parities are the `KERNEL_HEIGHT` rows of error history (00_scope rule R8). -/
theorem parity_lt_kernelHeight (r : BitVec 1) : r.toNat < kernelHeight := r.isLt

variable {m : List (Nat × Int)}

theorem sparseWf_pushErr (c : Channel) (r : BitVec 1) (k : Nat) (wt e : Int)
    (h : sparseWf 0 m = true) : sparseWf 0 (pushErr m c r k wt e) = true :=
  sparseWf_writeErr c r k _ h

theorem readErr_pushErr (c c' : Channel) (r r' : BitVec 1) (k k' : Nat) (wt e : Int)
    (h : sparseWf 0 m = true) :
    readErr (pushErr m c r k wt e) c' r' k' =
      if c' = c ∧ r' = r ∧ k' = k then readErr m c' r' k' + pushAmount wt e
      else readErr m c' r' k' := by
  rw [pushErr, readErr_writeErr _ _ _ _ _ _ _ h]
  split_ifs with hk
  · obtain ⟨rfl, rfl, rfl⟩ := hk; rfl
  · rfl

/-- Zeroing the consumed cells keeps the form. -/
theorem sparseWf_consumeErr (p : BitVec 1) (i : Nat) (h : sparseWf 0 m = true) :
    sparseWf 0 (consumeErr m p i) = true := by
  simp only [consumeErr, List.foldl]
  exact sparseWf_writeErr _ _ _ _ (sparseWf_writeErr _ _ _ _ (sparseWf_writeErr _ _ _ _ h))

/-- Step 2 zeroes the three cells of the position and no other (41_dither rule R122). -/
theorem readErr_consumeErr (p r : BitVec 1) (i k : Nat) (c : Channel) (h : sparseWf 0 m = true) :
    readErr (consumeErr m p i) c r k = if r = p ∧ k = i then 0 else readErr m c r k := by
  have h1 := sparseWf_writeErr .red p i 0 h
  have h2 := sparseWf_writeErr .green p i 0 h1
  simp only [consumeErr, List.foldl, readErr_writeErr _ _ _ _ _ _ _ h2,
    readErr_writeErr _ _ _ _ _ _ _ h1, readErr_writeErr _ _ _ _ _ _ _ h]
  cases c <;> simp

/-- One target keeps the form. -/
theorem sparseWf_pushTarget (p : BitVec 1) (i w : Nat) (e : Channel → Int) (t : Int × Bool × Int)
    (h : sparseWf 0 m = true) : sparseWf 0 (pushTarget p i w e m t) = true := by
  simp only [pushTarget, List.foldl]
  split_ifs
  · exact sparseWf_pushErr _ _ _ _ _ (sparseWf_pushErr _ _ _ _ _ (sparseWf_pushErr _ _ _ _ _ h))
  · exact h

/-- One target of step 5 adds to the three cells of its column, if the row has that column, and to no
other (41_dither rules R122, R125). -/
theorem readErr_pushTarget (p r : BitVec 1) (i w k : Nat) (e : Channel → Int) (t : Int × Bool × Int)
    (c : Channel) (h : sparseWf 0 m = true) :
    readErr (pushTarget p i w e m t) c r k =
      if (k : Int) = (i : Int) + t.1 ∧ k < w ∧ r = targetRow p t.2.1
      then readErr m c r k + pushAmount t.2.2 (e c) else readErr m c r k := by
  simp only [pushTarget, List.foldl]
  split_ifs with h1 h2 h2
  · obtain ⟨hk, hw, rfl⟩ := h2
    have hk' : ((i : Int) + t.1).toNat = k := by omega
    have w1 := sparseWf_pushErr .red (targetRow p t.2.1) k t.2.2 (e .red) h
    have w2 := sparseWf_pushErr .green (targetRow p t.2.1) k t.2.2 (e .green) w1
    rw [hk', readErr_pushErr _ _ _ _ _ _ _ _ w2, readErr_pushErr _ _ _ _ _ _ _ _ w1,
      readErr_pushErr _ _ _ _ _ _ _ _ h]
    cases c <;> simp
  · have w1 := sparseWf_pushErr .red (targetRow p t.2.1) ((i : Int) + t.1).toNat t.2.2 (e .red) h
    have w2 := sparseWf_pushErr .green (targetRow p t.2.1) ((i : Int) + t.1).toNat t.2.2
      (e .green) w1
    have hn : ¬(r = targetRow p t.2.1 ∧ k = ((i : Int) + t.1).toNat) := by
      rintro ⟨hr, hk⟩
      exact h2 ⟨by omega, by omega, hr⟩
    rw [readErr_pushErr _ _ _ _ _ _ _ _ w2, readErr_pushErr _ _ _ _ _ _ _ _ w1,
      readErr_pushErr _ _ _ _ _ _ _ _ h]
    simp [hn]
  · exact absurd ⟨by omega, by omega⟩ h1
  · rfl

/-- Step 5 keeps the form. -/
theorem sparseWf_diffuse (p : BitVec 1) (i w : Nat) (e : Channel → Int) (h : sparseWf 0 m = true) :
    sparseWf 0 (diffuse p i w e m) = true := by
  simp only [diffuse, kernelTargets, List.foldl]
  exact sparseWf_pushTarget _ _ _ _ _ (sparseWf_pushTarget _ _ _ _ _ (sparseWf_pushTarget _ _ _ _ _
    (sparseWf_pushTarget _ _ _ _ _ h)))

/-! ### The advance of the engine -/

variable (P : Palette) (d : Dither) (raw : Rgb)

@[simp] theorem ditherAdvance_valid : (ditherAdvance P d raw).valid = d.valid := by
  simp only [ditherAdvance]; split <;> rfl

@[simp] theorem ditherAdvance_w : (ditherAdvance P d raw).w = d.w := by
  simp only [ditherAdvance]; split <;> rfl

@[simp] theorem ditherAdvance_err : (ditherAdvance P d raw).err =
    diffuse d.par d.col.toNat d.w.toNat (channelResidual P d raw)
      (consumeErr d.err d.par d.col.toNat) := by
  simp only [ditherAdvance]; split <;> rfl

/-- After the last column the engine is at column 0 of the other row. -/
theorem ditherAdvance_last (h : d.col.toNat + 1 = d.w.toNat) :
    (ditherAdvance P d raw).col = 0 ∧ (ditherAdvance P d raw).par = d.par ^^^ 1 := by
  simp [ditherAdvance, h]

/-- Before it, at the next column of the same row. -/
theorem ditherAdvance_inner (h : d.col.toNat + 1 ≠ d.w.toNat) :
    (ditherAdvance P d raw).col = d.col + 1 ∧ (ditherAdvance P d raw).par = d.par := by
  simp [ditherAdvance, h]

end Sys2Proof.Machine
end

