-- ==== Sys2Proof/Laws/Operands.lean ====
section
/-! SUPPORT. The small lemmas of the operand forms: fields of an assembled word, packed colours, nibbles,
palette codes. -/

namespace Sys2Proof

/-! ### The fields of an assembled command word (30_encoding rule R81) -/

/-- Bits of a field of a word, where the word's bits there are the field's. -/
theorem extract_of_bits {n m : Nat} {w : BitVec n} {v : BitVec m} (k : Nat)
    (h : ∀ i, i < m → w.getLsbD (k + i) = v.getLsbD i) : w.extractLsb' k m = v := by
  apply BitVec.eq_of_getLsbD_eq
  intro i hi
  rw [BitVec.getLsbD_extractLsb', h i hi]
  simp [hi]

variable (op : BitVec 4) (x y : Coord) (color : Code) (rgb : Rgb24)

/-- The bits of an assembled word, field by field. -/
theorem Hcw.getLsbD_assemble (i : Nat) : (Hcw.assemble op x y color rgb).getLsbD i =
    if i < 24 then rgb.getLsbD i
    else if i < 28 then color.getLsbD (i - 24)
    else if i < 44 then y.getLsbD (i - 28)
    else if i < 60 then x.getLsbD (i - 44)
    else op.getLsbD (i - 60) := by
  simp only [Hcw.assemble, BitVec.getLsbD_append]
  split_ifs <;> first | rfl | omega

theorem Hcw.opField_assemble : (Hcw.assemble op x y color rgb).opField = op :=
  extract_of_bits 60 fun i hi => by
    rw [Hcw.getLsbD_assemble]; split_ifs <;> first | omega | (congr 1; omega)

theorem Hcw.xField_assemble : (Hcw.assemble op x y color rgb).xField = x :=
  extract_of_bits 44 fun i hi => by
    rw [Hcw.getLsbD_assemble]; split_ifs <;> first | omega | (congr 1; omega)

theorem Hcw.yField_assemble : (Hcw.assemble op x y color rgb).yField = y :=
  extract_of_bits 28 fun i hi => by
    rw [Hcw.getLsbD_assemble]; split_ifs <;> first | omega | (congr 1; omega)

theorem Hcw.colorField_assemble : (Hcw.assemble op x y color rgb).colorField = color :=
  extract_of_bits 24 fun i hi => by
    rw [Hcw.getLsbD_assemble]; split_ifs <;> first | omega | (congr 1; omega)

theorem Hcw.rgbField_assemble : (Hcw.assemble op x y color rgb).rgbField = rgb :=
  extract_of_bits 0 fun i hi => by
    rw [Hcw.getLsbD_assemble]; split_ifs <;> first | omega | (congr 1; omega)

/-- Each `op` value names its operation (30_encoding rule R82). -/
theorem HostOp.ofCode_code (o : HostOp) : HostOp.ofCode o.code = some o := by
  cases o <;> rfl

/-- Each opcode byte names its command (30_encoding rule R90). -/
theorem PanelCmd.ofOpcode_opcode (c : PanelCmd) : PanelCmd.ofOpcode c.opcode = some c := by
  cases c <;> rfl

namespace Machine

/-! ### Arithmetic and parameters -/

/-- The spec's division toward zero is the library's (00_scope rule R11). -/
theorem tdiv_eq (a b : Int) : tdiv a b = Int.tdiv a b := by
  unfold tdiv
  split_ifs with h
  · exact (Int.tdiv_eq_ediv_of_nonneg h).symm
  · rw [← Int.tdiv_eq_ediv_of_nonneg (by omega : 0 ≤ -a), Int.neg_tdiv, Int.neg_neg]

/-- `N_COLORS` is the number of palette colours (00_scope rule R8). -/
theorem allColors_length : allColors.length = nColors := rfl

/-! ### Packed colours -/

/-- The bits of a packed colour. -/
theorem getLsbD_packRgb (c : Rgb) (i : Nat) : (packRgb c).getLsbD i =
    if i < 8 then c.b.getLsbD i else if i < 16 then c.g.getLsbD (i - 8)
    else c.r.getLsbD (i - 16) := by
  simp only [packRgb, BitVec.getLsbD_append]
  split_ifs <;> first | rfl | omega

@[simp] theorem unpackRgb_packRgb (c : Rgb) : unpackRgb (packRgb c) = c := by
  obtain ⟨r, g, b⟩ := c
  simp only [unpackRgb, Rgb.mk.injEq]
  refine ⟨extract_of_bits 16 fun i hi => ?_, extract_of_bits 8 fun i hi => ?_,
    extract_of_bits 0 fun i hi => ?_⟩ <;>
  · rw [getLsbD_packRgb]; split_ifs <;> first | omega | (congr 1; omega)

/-- A channel is between 0 and 255. -/
theorem rgbChannel_bounds (c : Rgb) (ch : Channel) : 0 ≤ rgbChannel c ch ∧ rgbChannel c ch ≤ 255 := by
  obtain ⟨r, g, b⟩ := c
  have := r.isLt
  have := g.isLt
  have := b.isLt
  cases ch <;> simp only [rgbChannel] <;> omega

/-! ### Nibbles -/

@[simp] theorem hi4_joinNibbles (hi lo : Code) : hi4 (joinNibbles hi lo) = hi := by
  revert hi lo; unfold hi4 joinNibbles; decide

@[simp] theorem lo4_joinNibbles (hi lo : Code) : lo4 (joinNibbles hi lo) = lo := by
  revert hi lo; unfold lo4 joinNibbles; decide

/-- Which nibble a column has, as the statements write it (20_memory rule R52). -/
theorem inHighNibble_iff (o : NibbleOrder) (x : Coord) :
    inHighNibble o x = true ↔ (x.toNat % 2 = 0 ↔ o = .evenHigh) := by
  simp [inHighNibble]

/-! ### Pixel addresses -/

/-- What the bounds check says (42_framebuffer rule R141). -/
theorem inBounds_iff (x y : Coord) : inBounds x y = true ↔ x.toNat < 600 ∧ y.toNat < 448 := by
  exact decide_eq_true_iff

/-- The byte of a pixel in bounds is one of the framebuffer's. -/
theorem pixelAddr_lt {x y : Coord} (h : inBounds x y = true) : pixelAddr x y < fbBytes := by
  rw [inBounds_iff] at h
  show x.toNat / 2 + y.toNat * 300 < 134400
  omega

/-! ### Palette codes -/

@[simp] theorem colorOfCode_colorCode (p : PaletteColor) : colorOfCode (colorCode p) = some p := by
  cases p <;> rfl

theorem colorCode_le (p : PaletteColor) : (colorCode p).toNat ≤ 6 := by cases p <;> decide

/-- The other row parity (41_dither rule R122). -/
theorem eq_flip_iff (r p : BitVec 1) : r = p ^^^ 1 ↔ r ≠ p := by revert r p; decide

end Machine

end Sys2Proof
end

