-- ==== Sys2Proof/Laws/PerInstr.lean ====
section
/-! SUPPORT. Statements made per instruction: the encoding of every instruction is of its row's format and
carries its row's opcode, whatever its operands are (30_encoding rules R80, R82, R90). -/

namespace Sys2Proof.Laws

/-- The width and the opcode of an instruction's row of spec/opcode_table.json. -/
def OpcodeMatchesTable.row : Instr → Nat × Nat
  | .new => (64, 0x0)
  | .setPixel _ _ _ => (64, 0x1)
  | .setPixelRgb _ _ _ => (64, 0x2)
  | .getPixel _ _ => (64, 0x3)
  | .clear => (64, 0x4)
  | .init => (64, 0x5)
  | .display => (64, 0x6)
  | .nearest _ => (64, 0x8)
  | .toRgb _ => (64, 0x9)
  | .ditherNew _ => (64, 0xA)
  | .ditherNext _ => (64, 0xB)
  | .panelSet => (8, 0x00)
  | .powerSet => (8, 0x01)
  | .powerOffSeqSet => (8, 0x03)
  | .powerOff => (8, 0x04)
  | .boosterSoftstart => (8, 0x06)
  | .deepSleep => (8, 0x07)
  | .dataStart => (8, 0x10)
  | .displayRefresh => (8, 0x12)
  | .tempSensorEn => (8, 0x41)
  | .vcomDataInterval => (8, 0x50)
  | .vendor60 => (8, 0x60)
  | .resolutionSet => (8, 0x61)
  | .vendorTuningE3 => (8, 0xE3)

/-- The width and the opcode field of an encoded instruction. -/
def OpcodeMatchesTable.opcodeOf : Encoded → Nat × Nat
  | .host w => (64, w.opField.toNat)
  | .wire b => (8, b.toNat)

/-- The encoding of the instruction has the width and the opcode of its row. -/
def OpcodeMatchesTable.Statement (i : Instr) : Prop :=
  OpcodeMatchesTable.opcodeOf (encode i) = OpcodeMatchesTable.row i

/-- An assembled host command word carries the opcode it was given. -/
theorem OpcodeMatchesTable.opcodeOf_assemble (op : HostOp) (x y : Coord) (color : Code) (rgb : Rgb24) :
    OpcodeMatchesTable.opcodeOf (.host (Hcw.assemble op.code x y color rgb)) =
      (64, op.code.toNat) := by
  simp [OpcodeMatchesTable.opcodeOf, Hcw.opField_assemble]

theorem OpcodeMatchesTable.new :
    OpcodeMatchesTable.Statement .new :=
  OpcodeMatchesTable.opcodeOf_assemble _ _ _ _ _

theorem OpcodeMatchesTable.setPixel (x : Coord) (y : Coord) (color : Code) :
    OpcodeMatchesTable.Statement (.setPixel x y color) :=
  OpcodeMatchesTable.opcodeOf_assemble _ _ _ _ _

theorem OpcodeMatchesTable.setPixelRgb (x : Coord) (y : Coord) (rgb : Rgb24) :
    OpcodeMatchesTable.Statement (.setPixelRgb x y rgb) :=
  OpcodeMatchesTable.opcodeOf_assemble _ _ _ _ _

theorem OpcodeMatchesTable.getPixel (x : Coord) (y : Coord) :
    OpcodeMatchesTable.Statement (.getPixel x y) :=
  OpcodeMatchesTable.opcodeOf_assemble _ _ _ _ _

theorem OpcodeMatchesTable.clear :
    OpcodeMatchesTable.Statement .clear :=
  OpcodeMatchesTable.opcodeOf_assemble _ _ _ _ _

theorem OpcodeMatchesTable.init :
    OpcodeMatchesTable.Statement .init :=
  OpcodeMatchesTable.opcodeOf_assemble _ _ _ _ _

theorem OpcodeMatchesTable.display :
    OpcodeMatchesTable.Statement .display :=
  OpcodeMatchesTable.opcodeOf_assemble _ _ _ _ _

theorem OpcodeMatchesTable.nearest (rgb : Rgb24) :
    OpcodeMatchesTable.Statement (.nearest rgb) :=
  OpcodeMatchesTable.opcodeOf_assemble _ _ _ _ _

theorem OpcodeMatchesTable.toRgb (color : Code) :
    OpcodeMatchesTable.Statement (.toRgb color) :=
  OpcodeMatchesTable.opcodeOf_assemble _ _ _ _ _

theorem OpcodeMatchesTable.ditherNew (w : Coord) :
    OpcodeMatchesTable.Statement (.ditherNew w) :=
  OpcodeMatchesTable.opcodeOf_assemble _ _ _ _ _

theorem OpcodeMatchesTable.ditherNext (rgb : Rgb24) :
    OpcodeMatchesTable.Statement (.ditherNext rgb) :=
  OpcodeMatchesTable.opcodeOf_assemble _ _ _ _ _

theorem OpcodeMatchesTable.panelSet : OpcodeMatchesTable.Statement .panelSet := rfl

theorem OpcodeMatchesTable.powerSet : OpcodeMatchesTable.Statement .powerSet := rfl

theorem OpcodeMatchesTable.powerOffSeqSet : OpcodeMatchesTable.Statement .powerOffSeqSet := rfl

theorem OpcodeMatchesTable.powerOff : OpcodeMatchesTable.Statement .powerOff := rfl

theorem OpcodeMatchesTable.boosterSoftstart : OpcodeMatchesTable.Statement .boosterSoftstart := rfl

theorem OpcodeMatchesTable.deepSleep : OpcodeMatchesTable.Statement .deepSleep := rfl

theorem OpcodeMatchesTable.dataStart : OpcodeMatchesTable.Statement .dataStart := rfl

theorem OpcodeMatchesTable.displayRefresh : OpcodeMatchesTable.Statement .displayRefresh := rfl

theorem OpcodeMatchesTable.tempSensorEn : OpcodeMatchesTable.Statement .tempSensorEn := rfl

theorem OpcodeMatchesTable.vcomDataInterval : OpcodeMatchesTable.Statement .vcomDataInterval := rfl

theorem OpcodeMatchesTable.vendor60 : OpcodeMatchesTable.Statement .vendor60 := rfl

theorem OpcodeMatchesTable.resolutionSet : OpcodeMatchesTable.Statement .resolutionSet := rfl

theorem OpcodeMatchesTable.vendorTuningE3 : OpcodeMatchesTable.Statement .vendorTuningE3 := rfl

end Sys2Proof.Laws
end

