-- ==== Sys2Proof/Laws/Sequences.lean ====
section
/-! SUPPORT. The step lists: their shape depends on the configuration only through the presence of item 3,
so facts about positions are finite checks; and how entries, actions and positions fit together. -/

namespace Sys2Proof.Machine

/-- The configuration the spec takes, with item 3 of `WAKE_CFG` present or absent. -/
def shapeConfig (present : Bool) : Config := { takenConfig with powerOffSeqPresent := present }

/-- A command has as many steps whatever its data are. -/
theorem commandEntries_shape (c c' : Config) (p : PanelCmd) :
    commandEntries c p = commandEntries c' p := by cases p <;> rfl

theorem wakeupList_shape (c : Config) :
    wakeupList c = wakeupList (shapeConfig c.powerOffSeqPresent) := by
  have h : commandEntries c = commandEntries (shapeConfig c.powerOffSeqPresent) :=
    funext fun p => commandEntries_shape _ _ p
  simp only [wakeupList, h]; rfl

/-- The step lists of two configurations that agree on item 3 are the same list of entries. -/
theorem stepList_shape (c : Config) (op : HostOp) :
    stepList c op = stepList (shapeConfig c.powerOffSeqPresent) op := by
  have h : commandEntries c = commandEntries (shapeConfig c.powerOffSeqPresent) :=
    funext fun p => commandEntries_shape _ _ p
  have hw := wakeupList_shape c
  cases op <;> simp only [stepList, initList, displayList, transferList, sleepList, h, hw]

/-- The operations without a step list. -/
theorem stepList_of_not_panel (c : Config) {op : HostOp} (h : isPanelOp op = false) :
    stepList c op = [] := by cases op <;> first | rfl | simp [isPanelOp] at h

/-- A check of every position of every step list, made once for both shapes. -/
def everyPosition (f : List Entry → Nat → Bool) : Bool :=
  [true, false].all fun b => [HostOp.init, HostOp.display].all fun op =>
    (List.range (stepList (shapeConfig b) op).length).all fun pc =>
      f (stepList (shapeConfig b) op) pc

/-- What such a check says of a step list of any configuration. -/
theorem everyPosition_spec {f : List Entry → Nat → Bool} (h : everyPosition f = true) (c : Config)
    (op : HostOp) {pc : Nat} (hpc : pc < (stepList c op).length) :
    f (stepList c op) pc = true := by
  rw [stepList_shape] at hpc ⊢
  simp only [everyPosition, List.all_eq_true, List.mem_range] at h
  have hop : op ∈ [HostOp.init, HostOp.display] := by
    by_contra hn
    have : isPanelOp op = false := by cases op <;> simp_all [isPanelOp]
    simp [stepList_of_not_panel _ this] at hpc
  have hb : c.powerOffSeqPresent ∈ [true, false] := by cases c.powerOffSeqPresent <;> simp
  exact h _ hb op hop pc hpc

/-- The position of an entry is inside its list. -/
theorem lt_length_of_entry {es : List Entry} {pc : Nat} {e : Entry} (h : es[pc]? = some e) :
    pc < es.length := (List.getElem?_eq_some_iff.mp h).1

/-- Only the panel operations have entries. -/
theorem isPanelOp_of_entry {c : Config} {op : HostOp} {pc : Nat} {e : Entry}
    (h : (stepList c op)[pc]? = some e) : isPanelOp op = true := by
  by_contra hn
  simp [stepList_of_not_panel c (by simpa using hn)] at h

/-- Step `k + 1` of a command comes right after its step `k`. -/
theorem command_step_before {c : Config} {op : HostOp} {pc k : Nat} {p : PanelCmd}
    (h : (stepList c op)[pc + 1]? = some (.command p (k + 1))) :
    (stepList c op)[pc]? = some (.command p k) := by
  have hl := lt_length_of_entry h
  have hc := everyPosition_spec
    (f := fun es i => match es[i]? with
      | some (.command q (j + 1)) => decide (0 < i ∧ es[i - 1]? = some (.command q j))
      | some (.command _ 0) => true
      | some (.plain _) => true
      | none => true) (by decide +kernel) c op hl
  simp only [h, decide_eq_true_eq] at hc
  simpa using hc.2

/-- A list begins with a step of its own, never in the middle of a command. -/
theorem first_entry_not_command {c : Config} {op : HostOp} {p : PanelCmd} {k : Nat} :
    (stepList c op)[0]? ≠ some (.command p k) := by
  intro h
  have hc := everyPosition_spec
    (f := fun es i => match es[i]? with
      | some (.command _ _) => decide (i ≠ 0)
      | some (.plain _) => true
      | none => true) (by decide +kernel) c op (lt_length_of_entry h)
  simp [h] at hc

/-- The wakeup is a proper part of every panel operation's list, and it is not empty. -/
theorem wakeup_inside (c : Config) {op : HostOp} (h : isPanelOp op = true) :
    0 < (wakeupList c).length ∧ (wakeupList c).length < (stepList c op).length := by
  rw [wakeupList_shape, stepList_shape]
  cases op <;> simp [isPanelOp] at h <;> cases c.powerOffSeqPresent <;> decide +kernel

/-- The step after step `k` of a command is the command's next step, or the command is over. -/
theorem command_step_after {c : Config} {op : HostOp} {pc k : Nat} {p : PanelCmd}
    (h : (stepList c op)[pc]? = some (.command p k)) (hk : k + 1 < (commandActions c p).length) :
    (stepList c op)[pc + 1]? = some (.command p (k + 1)) := by
  have hc := everyPosition_spec
    (f := fun es i => match es[i]? with
      | some (.command q j) => decide (j + 1 < (commandActions takenConfig q).length →
          es[i + 1]? = some (.command q (j + 1)))
      | some (.plain _) => true
      | none => true) (by decide +kernel) c op (lt_length_of_entry h)
  have hlen : (commandActions c p).length = (commandActions takenConfig p).length := by
    cases p <;> rfl
  rw [hlen] at hk
  simp only [h, decide_eq_true_eq] at hc
  exact hc hk

/-- No list ends with a command's step, and the wakeup does not end in the middle of a command. -/
theorem command_step_inside {c : Config} {op : HostOp} {pc k : Nat} {p : PanelCmd}
    (h : (stepList c op)[pc]? = some (.command p k)) :
    pc + 1 < (stepList c op).length ∧ (pc = (wakeupList c).length → k = 0) := by
  have hp := isPanelOp_of_entry h
  rw [stepList_shape] at h ⊢
  rw [wakeupList_shape]
  have hall : ∀ b o, isPanelOp o = true →
      ((List.range (stepList (shapeConfig b) o).length).all fun i =>
        match (stepList (shapeConfig b) o)[i]? with
        | some (.command _ j) => decide (i + 1 < (stepList (shapeConfig b) o).length ∧
            (i = (wakeupList (shapeConfig b)).length → j = 0))
        | some (.plain _) => true
        | none => true) = true := by
    intro b o ho
    cases o <;> simp [isPanelOp] at ho <;> cases b <;> decide +kernel
  have hc := List.all_eq_true.mp (hall _ _ hp) pc (List.mem_range.mpr (lt_length_of_entry h))
  simpa only [h, decide_eq_true_eq] using hc

/-- A wait follows a command that has no data, and no other. -/
theorem wait_after_command {c : Config} {op : HostOp} {pc k : Nat} {p : PanelCmd}
    (h : (stepList c op)[pc]? = some (.command p k)) :
    isWaitAt (stepList c op) (pc + 1) =
      (decide (k = 1) && decide ((commandActions c p).length = 2)) := by
  have hc := everyPosition_spec
    (f := fun es i => match es[i]? with
      | some (.command q j) => isWaitAt es (i + 1) ==
          (decide (j = 1) && decide ((commandActions takenConfig q).length = 2))
      | some (.plain _) => true
      | none => true) (by decide +kernel) c op (lt_length_of_entry h)
  have hlen : (commandActions c p).length = (commandActions takenConfig p).length := by
    cases p <;> rfl
  simp only [h, beq_iff_eq] at hc
  rw [hlen, hc]

/-- Every entry stands for an action: a command's entry for the step of that number. -/
theorem entryAction_isSome {c : Config} {op : HostOp} {pc : Nat} (h : pc < (stepList c op).length) :
    (((stepList c op)[pc]?).bind (entryAction c)).isSome = true := by
  obtain ⟨e, he⟩ : ∃ e, (stepList c op)[pc]? = some e := ⟨_, List.getElem?_eq_getElem h⟩
  have hc := everyPosition_spec
    (f := fun es i => match es[i]? with
      | some (.command q j) => decide (j < (commandActions takenConfig q).length)
      | some (.plain _) => true
      | none => true) (by decide +kernel) c op h
  rw [he] at hc ⊢
  cases e with
  | plain a => rfl
  | command p k =>
    have hlen : (commandActions c p).length = (commandActions takenConfig p).length := by
      cases p <;> rfl
    have hk : k < (commandActions c p).length := by rw [hlen]; simpa using hc
    simp [entryAction, hk]

/-- Step 0 of a command drives the select line low. -/
theorem commandActions_zero (c : Config) (p : PanelCmd) :
    (commandActions c p)[0]? = some (.dcSet .low) := by cases p <;> rfl

/-- Step 1 of a command writes its opcode. -/
theorem commandActions_one (c : Config) (p : PanelCmd) :
    (commandActions c p)[1]? = some (.wireWrite (.bytes [p.opcode])) := by cases p <;> rfl

/-- Step 2 of a command, where it has data, drives the select line high. -/
theorem commandActions_two {c : Config} {p : PanelCmd} {a : Action}
    (h : (commandActions c p)[2]? = some a) : a = .dcSet .high := by
  cases p <;> first | exact (Option.some.inj h).symm | simp [commandActions, powerOffActions, displayRefreshActions, sendCommand] at h

/-- The decoder reads each command's opcode as that command. -/
@[simp] theorem decodeWire_opcode (p : PanelCmd) : decodeWire p.opcode = .ok p.instr := by
  cases p <;> rfl

/-- The meaning of a panel command is the step of its own actions that the sequencer is at. -/
theorem exec_command (p : PanelCmd) (s : State) :
    exec p.instr s = commandStep p (commandActions s.cfg p) s := by cases p <;> rfl

end Sys2Proof.Machine
end

