-- ==== Sys2Proof/Laws/State.lean ====
section
/-! SUPPORT. What each named update of the state does to each field, so that no proof unfolds a record
update, and the small equations of the state's accessors. -/

namespace Sys2Proof.Machine

variable (s : State)

/-! ### emit -/

@[simp] theorem State.emit_latches (e : Event) : (s.emit e).latches = s.latches := rfl
@[simp] theorem State.emit_fb (e : Event) : (s.emit e).fb = s.fb := rfl
@[simp] theorem State.emit_sess (e : Event) : (s.emit e).sess = s.sess := rfl
@[simp] theorem State.emit_rstOut (e : Event) : (s.emit e).rstOut = s.rstOut := rfl
@[simp] theorem State.emit_dcOut (e : Event) : (s.emit e).dcOut = s.dcOut := rfl
@[simp] theorem State.emit_run (e : Event) : (s.emit e).run = s.run := rfl
@[simp] theorem State.emit_polls (e : Event) : (s.emit e).polls = s.polls := rfl
@[simp] theorem State.emit_resp (e : Event) : (s.emit e).resp = s.resp := rfl
@[simp] theorem State.emit_dither (e : Event) : (s.emit e).dither = s.dither := rfl
@[simp] theorem State.emit_cfg (e : Event) : (s.emit e).cfg = s.cfg := rfl
@[simp] theorem State.emit_host (e : Event) : (s.emit e).host = s.host := rfl
@[simp] theorem State.emit_answers (e : Event) : (s.emit e).answers = s.answers := rfl
@[simp] theorem State.emit_hwReset (e : Event) : (s.emit e).hwReset = s.hwReset := rfl
@[simp] theorem State.emit_draws (e : Event) : (s.emit e).draws = s.draws := rfl
@[simp] theorem State.emit_trace (e : Event) : (s.emit e).trace = s.trace ++ [e] := rfl

/-! ### takeAnswer -/

@[simp] theorem State.takeAnswer_latches :
    s.takeAnswer.latches = s.latches := by
  unfold State.takeAnswer; split <;> rfl
@[simp] theorem State.takeAnswer_fb :
    s.takeAnswer.fb = s.fb := by
  unfold State.takeAnswer; split <;> rfl
@[simp] theorem State.takeAnswer_sess :
    s.takeAnswer.sess = s.sess := by
  unfold State.takeAnswer; split <;> rfl
@[simp] theorem State.takeAnswer_rstOut :
    s.takeAnswer.rstOut = s.rstOut := by
  unfold State.takeAnswer; split <;> rfl
@[simp] theorem State.takeAnswer_dcOut :
    s.takeAnswer.dcOut = s.dcOut := by
  unfold State.takeAnswer; split <;> rfl
@[simp] theorem State.takeAnswer_run :
    s.takeAnswer.run = s.run := by
  unfold State.takeAnswer; split <;> rfl
@[simp] theorem State.takeAnswer_polls :
    s.takeAnswer.polls = s.polls := by
  unfold State.takeAnswer; split <;> rfl
@[simp] theorem State.takeAnswer_resp :
    s.takeAnswer.resp = s.resp := by
  unfold State.takeAnswer; split <;> rfl
@[simp] theorem State.takeAnswer_dither :
    s.takeAnswer.dither = s.dither := by
  unfold State.takeAnswer; split <;> rfl
@[simp] theorem State.takeAnswer_cfg :
    s.takeAnswer.cfg = s.cfg := by
  unfold State.takeAnswer; split <;> rfl
@[simp] theorem State.takeAnswer_host :
    s.takeAnswer.host = s.host := by
  unfold State.takeAnswer; split <;> rfl
@[simp] theorem State.takeAnswer_hwReset :
    s.takeAnswer.hwReset = s.hwReset := by
  unfold State.takeAnswer; split <;> rfl
@[simp] theorem State.takeAnswer_trace :
    s.takeAnswer.trace = s.trace := by
  unfold State.takeAnswer; split <;> rfl

/-- With an answer listed, that answer is taken and nothing is drawn. -/
theorem State.nextAnswer_of_cons {a : Answer} {rest : List Answer} (h : s.answers = a :: rest) :
    s.nextAnswer = a := by simp [State.nextAnswer, h]

theorem State.takeAnswer_of_cons {a : Answer} {rest : List Answer} (h : s.answers = a :: rest) :
    s.takeAnswer = { s with answers := rest } := by simp [State.takeAnswer, h]

/-- With none listed, the answer is a free value and the counter moves on. -/
theorem State.nextAnswer_of_nil (h : s.answers = []) :
    s.nextAnswer = Config.freeAnswer s.draws := by simp [State.nextAnswer, h]

theorem State.takeAnswer_of_nil (h : s.answers = []) :
    s.takeAnswer = { s with draws := s.draws + 1 } := by simp [State.takeAnswer, h]

/-! ### respond -/

@[simp] theorem State.respond_latches (st : Status) (c : Option Code) (v : Option Rgb24) (i : Option Payload) :
    (s.respond st c v i).latches = s.latches := rfl
@[simp] theorem State.respond_fb (st : Status) (c : Option Code) (v : Option Rgb24) (i : Option Payload) :
    (s.respond st c v i).fb = s.fb := rfl
@[simp] theorem State.respond_sess (st : Status) (c : Option Code) (v : Option Rgb24) (i : Option Payload) :
    (s.respond st c v i).sess = s.sess := rfl
@[simp] theorem State.respond_rstOut (st : Status) (c : Option Code) (v : Option Rgb24) (i : Option Payload) :
    (s.respond st c v i).rstOut = s.rstOut := rfl
@[simp] theorem State.respond_dcOut (st : Status) (c : Option Code) (v : Option Rgb24) (i : Option Payload) :
    (s.respond st c v i).dcOut = s.dcOut := rfl
@[simp] theorem State.respond_run (st : Status) (c : Option Code) (v : Option Rgb24) (i : Option Payload) :
    (s.respond st c v i).run = .idle := rfl
@[simp] theorem State.respond_polls (st : Status) (c : Option Code) (v : Option Rgb24) (i : Option Payload) :
    (s.respond st c v i).polls = s.polls := rfl
@[simp] theorem State.respond_valid (st : Status) (c : Option Code) (v : Option Rgb24) (i : Option Payload) :
    (s.respond st c v i).resp.valid = true := rfl
@[simp] theorem State.respond_status (st : Status) (c : Option Code) (v : Option Rgb24) (i : Option Payload) :
    (s.respond st c v i).resp.status = st := rfl
@[simp] theorem State.respond_color (st : Status) (c : Option Code) (v : Option Rgb24) (i : Option Payload) :
    (s.respond st c v i).resp.color = c.getD (Config.freeColor s.draws) := rfl
@[simp] theorem State.respond_rgb (st : Status) (c : Option Code) (v : Option Rgb24) (i : Option Payload) :
    (s.respond st c v i).resp.rgb = v.getD (Config.freeRgb s.draws) := rfl
@[simp] theorem State.respond_info (st : Status) (c : Option Code) (v : Option Rgb24) (i : Option Payload) :
    (s.respond st c v i).resp.info = i.getD (Config.freeInfo s.draws) := rfl
@[simp] theorem State.respond_dither (st : Status) (c : Option Code) (v : Option Rgb24) (i : Option Payload) :
    (s.respond st c v i).dither = s.dither := rfl
@[simp] theorem State.respond_cfg (st : Status) (c : Option Code) (v : Option Rgb24) (i : Option Payload) :
    (s.respond st c v i).cfg = s.cfg := rfl
@[simp] theorem State.respond_host (st : Status) (c : Option Code) (v : Option Rgb24) (i : Option Payload) :
    (s.respond st c v i).host = s.host := rfl
@[simp] theorem State.respond_answers (st : Status) (c : Option Code) (v : Option Rgb24) (i : Option Payload) :
    (s.respond st c v i).answers = s.answers := rfl
@[simp] theorem State.respond_hwReset (st : Status) (c : Option Code) (v : Option Rgb24) (i : Option Payload) :
    (s.respond st c v i).hwReset = s.hwReset := rfl
@[simp] theorem State.respond_draws (st : Status) (c : Option Code) (v : Option Rgb24) (i : Option Payload) :
    (s.respond st c v i).draws = s.draws + 1 := rfl
@[simp] theorem State.respond_trace (st : Status) (c : Option Code) (v : Option Rgb24) (i : Option Payload) :
    (s.respond st c v i).trace = s.trace := rfl

/-! ### raiseFault and raisePixelOutOfBounds (60_exceptions rules R246, R247) -/

@[simp] theorem State.raiseFault_latches (k : Status) (i : Option Payload) :
    (s.raiseFault k i).latches = s.latches := rfl
@[simp] theorem State.raiseFault_fb (k : Status) (i : Option Payload) :
    (s.raiseFault k i).fb = s.fb := rfl
@[simp] theorem State.raiseFault_sess (k : Status) (i : Option Payload) :
    (s.raiseFault k i).sess = .unknown := rfl
@[simp] theorem State.raiseFault_rstOut (k : Status) (i : Option Payload) :
    (s.raiseFault k i).rstOut = s.rstOut := rfl
@[simp] theorem State.raiseFault_dcOut (k : Status) (i : Option Payload) :
    (s.raiseFault k i).dcOut = s.dcOut := rfl
@[simp] theorem State.raiseFault_run (k : Status) (i : Option Payload) :
    (s.raiseFault k i).run = .idle := rfl
@[simp] theorem State.raiseFault_polls (k : Status) (i : Option Payload) :
    (s.raiseFault k i).polls = s.polls := rfl
@[simp] theorem State.raiseFault_valid (k : Status) (i : Option Payload) :
    (s.raiseFault k i).resp.valid = true := rfl
@[simp] theorem State.raiseFault_status (k : Status) (i : Option Payload) :
    (s.raiseFault k i).resp.status = k := rfl
@[simp] theorem State.raiseFault_info (k : Status) (i : Option Payload) :
    (s.raiseFault k i).resp.info = i.getD (Config.freeInfo s.draws) := rfl
@[simp] theorem State.raiseFault_dither (k : Status) (i : Option Payload) :
    (s.raiseFault k i).dither = s.dither := rfl
@[simp] theorem State.raiseFault_cfg (k : Status) (i : Option Payload) :
    (s.raiseFault k i).cfg = s.cfg := rfl
@[simp] theorem State.raiseFault_host (k : Status) (i : Option Payload) :
    (s.raiseFault k i).host = s.host := rfl
@[simp] theorem State.raiseFault_answers (k : Status) (i : Option Payload) :
    (s.raiseFault k i).answers = s.answers := rfl
@[simp] theorem State.raiseFault_hwReset (k : Status) (i : Option Payload) :
    (s.raiseFault k i).hwReset = s.hwReset := rfl
@[simp] theorem State.raiseFault_draws (k : Status) (i : Option Payload) :
    (s.raiseFault k i).draws = s.draws + 1 := rfl
@[simp] theorem State.raiseFault_trace (k : Status) (i : Option Payload) :
    (s.raiseFault k i).trace = s.trace := rfl
@[simp] theorem State.raisePixelOutOfBounds_latches :
    s.raisePixelOutOfBounds.latches = s.latches := rfl
@[simp] theorem State.raisePixelOutOfBounds_fb : s.raisePixelOutOfBounds.fb = s.fb := rfl
@[simp] theorem State.raisePixelOutOfBounds_sess : s.raisePixelOutOfBounds.sess = s.sess := rfl
@[simp] theorem State.raisePixelOutOfBounds_rstOut :
    s.raisePixelOutOfBounds.rstOut = s.rstOut := rfl
@[simp] theorem State.raisePixelOutOfBounds_dcOut : s.raisePixelOutOfBounds.dcOut = s.dcOut := rfl
@[simp] theorem State.raisePixelOutOfBounds_run : s.raisePixelOutOfBounds.run = .idle := rfl
@[simp] theorem State.raisePixelOutOfBounds_polls : s.raisePixelOutOfBounds.polls = s.polls := rfl
@[simp] theorem State.raisePixelOutOfBounds_valid : s.raisePixelOutOfBounds.resp.valid = true := rfl
@[simp] theorem State.raisePixelOutOfBounds_status :
    s.raisePixelOutOfBounds.resp.status = .pixelOutOfBounds := rfl
@[simp] theorem State.raisePixelOutOfBounds_dither :
    s.raisePixelOutOfBounds.dither = s.dither := rfl
@[simp] theorem State.raisePixelOutOfBounds_cfg : s.raisePixelOutOfBounds.cfg = s.cfg := rfl
@[simp] theorem State.raisePixelOutOfBounds_host : s.raisePixelOutOfBounds.host = s.host := rfl
@[simp] theorem State.raisePixelOutOfBounds_answers :
    s.raisePixelOutOfBounds.answers = s.answers := rfl
@[simp] theorem State.raisePixelOutOfBounds_hwReset :
    s.raisePixelOutOfBounds.hwReset = s.hwReset := rfl
@[simp] theorem State.raisePixelOutOfBounds_draws :
    s.raisePixelOutOfBounds.draws = s.draws + 1 := rfl
@[simp] theorem State.raisePixelOutOfBounds_trace : s.raisePixelOutOfBounds.trace = s.trace := rfl

/-! ### advance (10_state rule R26) -/

@[simp] theorem State.advance_latches (op : HostOp) (pc : Nat) :
    (s.advance op pc).latches = s.latches := by
  unfold State.advance; split <;> rfl
@[simp] theorem State.advance_fb (op : HostOp) (pc : Nat) :
    (s.advance op pc).fb = s.fb := by
  unfold State.advance; split <;> rfl
@[simp] theorem State.advance_sess (op : HostOp) (pc : Nat) :
    (s.advance op pc).sess = sessAfter s.cfg op (pc + 1) s.sess := by
  unfold State.advance; split <;> rfl
@[simp] theorem State.advance_rstOut (op : HostOp) (pc : Nat) :
    (s.advance op pc).rstOut = s.rstOut := by
  unfold State.advance; split <;> rfl
@[simp] theorem State.advance_dcOut (op : HostOp) (pc : Nat) :
    (s.advance op pc).dcOut = s.dcOut := by
  unfold State.advance; split <;> rfl
@[simp] theorem State.advance_dither (op : HostOp) (pc : Nat) :
    (s.advance op pc).dither = s.dither := by
  unfold State.advance; split <;> rfl
@[simp] theorem State.advance_cfg (op : HostOp) (pc : Nat) :
    (s.advance op pc).cfg = s.cfg := by
  unfold State.advance; split <;> rfl
@[simp] theorem State.advance_host (op : HostOp) (pc : Nat) :
    (s.advance op pc).host = s.host := by
  unfold State.advance; split <;> rfl
@[simp] theorem State.advance_answers (op : HostOp) (pc : Nat) :
    (s.advance op pc).answers = s.answers := by
  unfold State.advance; split <;> rfl
@[simp] theorem State.advance_hwReset (op : HostOp) (pc : Nat) :
    (s.advance op pc).hwReset = s.hwReset := by
  unfold State.advance; split <;> rfl
@[simp] theorem State.advance_trace (op : HostOp) (pc : Nat) :
    (s.advance op pc).trace = s.trace := by
  unfold State.advance; split <;> rfl

/-- At the end of the list the operation responds `OK`. -/
theorem State.advance_last (op : HostOp) (pc : Nat) (h : pc + 1 = (stepList s.cfg op).length) :
    s.advance op pc =
      { s with sess := sessAfter s.cfg op (pc + 1) s.sess }.respond .ok none none none := by
  simp [State.advance, h]

/-- Before the end the position moves on by one. -/
theorem State.advance_inner (op : HostOp) (pc : Nat) (h : pc + 1 ≠ (stepList s.cfg op).length) :
    s.advance op pc =
      { s with
        sess := sessAfter s.cfg op (pc + 1) s.sess
        run := .busy op (pc + 1)
        polls := if isWaitAt (stepList s.cfg op) (pc + 1) then 0 else s.polls } := by
  simp [State.advance, h]

/-! ### load, resetBlock, hardwareReset -/

@[simp] theorem State.load_latch_op (op : HostOp) (w : Hcw) :
    (s.load op w).latches.op = w.opField := rfl
@[simp] theorem State.load_latch_x (op : HostOp) (w : Hcw) :
    (s.load op w).latches.x = w.xField := rfl
@[simp] theorem State.load_latch_y (op : HostOp) (w : Hcw) :
    (s.load op w).latches.y = w.yField := rfl
@[simp] theorem State.load_latch_color (op : HostOp) (w : Hcw) :
    (s.load op w).latches.color = w.colorField := rfl
@[simp] theorem State.load_latch_rgb (op : HostOp) (w : Hcw) :
    (s.load op w).latches.rgb = w.rgbField := rfl
@[simp] theorem State.load_latch_w (op : HostOp) (w : Hcw) :
    (s.load op w).latches.w = w.xField := rfl
@[simp] theorem State.load_fb (op : HostOp) (w : Hcw) : (s.load op w).fb = s.fb := rfl
@[simp] theorem State.load_sess (op : HostOp) (w : Hcw) : (s.load op w).sess = s.sess := rfl
@[simp] theorem State.load_rstOut (op : HostOp) (w : Hcw) : (s.load op w).rstOut = s.rstOut := rfl
@[simp] theorem State.load_dcOut (op : HostOp) (w : Hcw) : (s.load op w).dcOut = s.dcOut := rfl
@[simp] theorem State.load_run (op : HostOp) (w : Hcw) : (s.load op w).run = .busy op 0 := rfl
@[simp] theorem State.load_polls (op : HostOp) (w : Hcw) : (s.load op w).polls = s.polls := rfl
@[simp] theorem State.load_valid (op : HostOp) (w : Hcw) : (s.load op w).resp.valid = false := rfl
@[simp] theorem State.load_dither (op : HostOp) (w : Hcw) : (s.load op w).dither = s.dither := rfl
@[simp] theorem State.load_cfg (op : HostOp) (w : Hcw) : (s.load op w).cfg = s.cfg := rfl
@[simp] theorem State.load_host (op : HostOp) (w : Hcw) : (s.load op w).host = s.host := rfl
@[simp] theorem State.load_answers (op : HostOp) (w : Hcw) :
    (s.load op w).answers = s.answers := rfl
@[simp] theorem State.load_hwReset (op : HostOp) (w : Hcw) :
    (s.load op w).hwReset = s.hwReset := rfl
@[simp] theorem State.load_draws (op : HostOp) (w : Hcw) : (s.load op w).draws = s.draws := rfl
@[simp] theorem State.load_trace (op : HostOp) (w : Hcw) : (s.load op w).trace = s.trace := rfl
@[simp] theorem State.resetBlock_latches : s.resetBlock.latches = s.latches := rfl
@[simp] theorem State.resetBlock_fb : s.resetBlock.fb = [] := rfl
@[simp] theorem State.resetBlock_sess : s.resetBlock.sess = .unknown := rfl
@[simp] theorem State.resetBlock_rstOut : s.resetBlock.rstOut = none := rfl
@[simp] theorem State.resetBlock_dcOut : s.resetBlock.dcOut = none := rfl
@[simp] theorem State.resetBlock_run : s.resetBlock.run = .idle := rfl
@[simp] theorem State.resetBlock_polls : s.resetBlock.polls = 0 := rfl
@[simp] theorem State.resetBlock_resp : s.resetBlock.resp = s.resp := rfl
@[simp] theorem State.resetBlock_dither : s.resetBlock.dither = Dither.reset := rfl
@[simp] theorem State.resetBlock_cfg : s.resetBlock.cfg = s.cfg := rfl
@[simp] theorem State.resetBlock_host : s.resetBlock.host = s.host := rfl
@[simp] theorem State.resetBlock_answers : s.resetBlock.answers = s.answers := rfl
@[simp] theorem State.resetBlock_hwReset : s.resetBlock.hwReset = s.hwReset := rfl
@[simp] theorem State.resetBlock_draws : s.resetBlock.draws = s.draws := rfl
@[simp] theorem State.resetBlock_trace : s.resetBlock.trace = s.trace := rfl
@[simp] theorem State.hardwareReset_latches : s.hardwareReset.latches = Latches.reset := rfl
@[simp] theorem State.hardwareReset_fb : s.hardwareReset.fb = [] := rfl
@[simp] theorem State.hardwareReset_sess : s.hardwareReset.sess = .unknown := rfl
@[simp] theorem State.hardwareReset_rstOut : s.hardwareReset.rstOut = none := rfl
@[simp] theorem State.hardwareReset_dcOut : s.hardwareReset.dcOut = none := rfl
@[simp] theorem State.hardwareReset_run : s.hardwareReset.run = .idle := rfl
@[simp] theorem State.hardwareReset_polls : s.hardwareReset.polls = 0 := rfl
@[simp] theorem State.hardwareReset_resp : s.hardwareReset.resp = Response.reset := rfl
@[simp] theorem State.hardwareReset_dither : s.hardwareReset.dither = Dither.reset := rfl
@[simp] theorem State.hardwareReset_cfg : s.hardwareReset.cfg = s.cfg := rfl
@[simp] theorem State.hardwareReset_host : s.hardwareReset.host = s.host := rfl
@[simp] theorem State.hardwareReset_answers : s.hardwareReset.answers = s.answers := rfl
@[simp] theorem State.hardwareReset_hwReset : s.hardwareReset.hwReset = false := rfl
@[simp] theorem State.hardwareReset_draws : s.hardwareReset.draws = s.draws := rfl
@[simp] theorem State.hardwareReset_trace : s.hardwareReset.trace = s.trace := rfl

/-! ### putPixel -/

@[simp] theorem State.putPixel_latches (x y : Coord) (c : Code) :
    (s.putPixel x y c).latches = s.latches := rfl
@[simp] theorem State.putPixel_fb (x y : Coord) (c : Code) :
    (s.putPixel x y c).fb = writeByte s.fb (pixelAddr x y)
      (setNibble s.cfg.nibbleOrder x c (readByte s.fb (pixelAddr x y))) := rfl
@[simp] theorem State.putPixel_sess (x y : Coord) (c : Code) :
    (s.putPixel x y c).sess = s.sess := rfl
@[simp] theorem State.putPixel_rstOut (x y : Coord) (c : Code) :
    (s.putPixel x y c).rstOut = s.rstOut := rfl
@[simp] theorem State.putPixel_dcOut (x y : Coord) (c : Code) :
    (s.putPixel x y c).dcOut = s.dcOut := rfl
@[simp] theorem State.putPixel_run (x y : Coord) (c : Code) : (s.putPixel x y c).run = s.run := rfl
@[simp] theorem State.putPixel_polls (x y : Coord) (c : Code) :
    (s.putPixel x y c).polls = s.polls := rfl
@[simp] theorem State.putPixel_resp (x y : Coord) (c : Code) :
    (s.putPixel x y c).resp = s.resp := rfl
@[simp] theorem State.putPixel_dither (x y : Coord) (c : Code) :
    (s.putPixel x y c).dither = s.dither := rfl
@[simp] theorem State.putPixel_cfg (x y : Coord) (c : Code) : (s.putPixel x y c).cfg = s.cfg := rfl
@[simp] theorem State.putPixel_host (x y : Coord) (c : Code) :
    (s.putPixel x y c).host = s.host := rfl
@[simp] theorem State.putPixel_answers (x y : Coord) (c : Code) :
    (s.putPixel x y c).answers = s.answers := rfl
@[simp] theorem State.putPixel_hwReset (x y : Coord) (c : Code) :
    (s.putPixel x y c).hwReset = s.hwReset := rfl
@[simp] theorem State.putPixel_draws (x y : Coord) (c : Code) :
    (s.putPixel x y c).draws = s.draws := rfl
@[simp] theorem State.putPixel_trace (x y : Coord) (c : Code) :
    (s.putPixel x y c).trace = s.trace := rfl

/-! ### The port and the position -/

/-- An operation whose turn it is gets its outcome. -/
theorem whenReady_of_position {op : HostOp} {o : Host.Outcome State Fault Refusal}
    (h : (s.position op).isSome = true) : whenReady op s o = o := by
  unfold whenReady; cases hp : s.position op <;> simp_all

/-- While another operation is in progress the word has no effect (46_driver rule R220). -/
theorem whenReady_of_turned_away {op : HostOp} {o : Host.Outcome State Fault Refusal}
    (h : s.position op = none) : whenReady op s o = .next s := by
  simp [whenReady, h]

theorem State.position_idle {op : HostOp} (h : s.run = .idle) : s.position op = some 0 := by
  simp [State.position, h]

theorem State.position_busy {op : HostOp} {pc : Nat} (h : s.run = .busy op pc) :
    s.position op = some pc := by simp [State.position, h]

theorem State.position_other {op op' : HostOp} {pc : Nat} (h : s.run = .busy op' pc)
    (hne : op' ≠ op) : s.position op = none := by simp [State.position, h, hne]

end Sys2Proof.Machine
end

