-- ==== Sys2Proof/Laws/Steps.lean ====
section
/-! SUPPORT. What a step can do, said once: the shared operations of the sequencer, and every way in which
`step` can answer a next state. -/

namespace Sys2Proof.Machine

/-- The parts of the state that an action leaves alone before its step completes or is aborted. -/
def ActionFrame (s u : State) : Prop :=
  u.latches = s.latches ∧ u.fb = s.fb ∧ u.sess = s.sess ∧ u.run = s.run ∧ u.resp = s.resp ∧
    u.dither = s.dither ∧ u.cfg = s.cfg ∧ u.host = s.host ∧ u.hwReset = s.hwReset

/-- Everything one step of a step list can do: from a state `u` that is `s` with one event more and the
pin shadow of the action written, the step completes, or is aborted, or (a wait) stays. -/
theorem perform_cases (s : State) (op : HostOp) (pc : Nat) (a : Action) :
    ∃ u e, ActionFrame s u ∧ u.trace = s.trace ++ [e] ∧
      ((s.perform op pc a = u.advance op pc ∧
          u.dcOut = (match a with | .dcSet l => some l | .rstSet _ => s.dcOut | .wireWrite _ => s.dcOut | .waitBusy _ => s.dcOut | .delayMs _ => s.dcOut) ∧
          u.rstOut = (match a with | .rstSet l => some l | .dcSet _ => s.rstOut | .wireWrite _ => s.rstOut | .waitBusy _ => s.rstOut | .delayMs _ => s.rstOut)) ∨
        (∃ k i, s.perform op pc a = u.raiseFault k i ∧ u.dcOut = s.dcOut ∧ u.rstOut = s.rstOut) ∨
        (∃ t, a = .waitBusy t ∧ s.perform op pc a = { u with run := .busy op pc } ∧
          u.dcOut = s.dcOut ∧ u.rstOut = s.rstOut)) := by
  cases a with
  | rstSet l =>
    cases hn : s.nextAnswer with
    | success b =>
      exact ⟨{ s.takeAnswer.emit (.rstSet l .ok) with rstOut := some l }, _, by simp [ActionFrame],
        by simp; rfl, .inl ⟨by simp [State.perform, State.doRstSet, hn], by simp, rfl⟩⟩
    | fault i d =>
      exact ⟨s.takeAnswer.emit (.rstSet l (.fault i)), _, by simp [ActionFrame], by simp; rfl,
        .inr (.inl ⟨.resetPinFault, some i, by simp [State.perform, State.doRstSet, hn], by simp⟩)⟩
  | dcSet l =>
    cases hn : s.nextAnswer with
    | success b =>
      exact ⟨{ s.takeAnswer.emit (.dcSet l .ok) with dcOut := some l }, _, by simp [ActionFrame],
        by simp; rfl, .inl ⟨by simp [State.perform, State.doDcSet, hn], rfl, by simp⟩⟩
    | fault i d =>
      exact ⟨s.takeAnswer.emit (.dcSet l (.fault i)), _, by simp [ActionFrame], by simp; rfl,
        .inr (.inl ⟨.dataCommandPinFault, some i, by simp [State.perform, State.doDcSet, hn],
          by simp⟩)⟩
  | wireWrite src =>
    cases hn : s.nextAnswer with
    | success b =>
      exact ⟨s.takeAnswer.emit (.wireWrite (s.sourceBytes src) .ok), _, by simp [ActionFrame],
        by simp; rfl, .inl ⟨by simp [State.perform, State.doWireWrite, hn], by simp, by simp⟩⟩
    | fault i d =>
      exact ⟨s.takeAnswer.emit
          (.wireWrite (s.sourceBytes src) (.fault i ((s.sourceBytes src).take d))), _,
        by simp [ActionFrame], by simp; rfl,
        .inr (.inl ⟨.wireFault, some i, by simp [State.perform, State.doWireWrite, hn], by simp⟩)⟩
  | waitBusy t =>
    cases hn : s.nextAnswer with
    | fault i d =>
      exact ⟨s.takeAnswer.emit (.busyRead (.fault i)), _, by simp [ActionFrame], by simp; rfl,
        .inr (.inl ⟨.busyPinFault, some i, by simp [State.perform, State.doWaitSample, hn],
          by simp⟩)⟩
    | success l =>
      refine ⟨{ s.takeAnswer.emit (.busyRead (.level l)) with polls := s.polls + 1 }, _,
        by simp [ActionFrame], by simp; rfl, ?_⟩
      by_cases h1 : l = awaitedLevel s.cfg t
      · exact .inl ⟨by simp [State.perform, State.doWaitSample, hn, h1], by simp, by simp⟩
      · by_cases h2 : pollLimitReached s.cfg (s.polls + 1) = true
        · exact .inr (.inl ⟨.panelTimeout, none,
            by simp [State.perform, State.doWaitSample, hn, h1, h2], by simp⟩)
        · exact .inr (.inr ⟨t, rfl, by simp [State.perform, State.doWaitSample, hn, h1, h2],
            by simp⟩)
  | delayMs n =>
    exact ⟨s.emit (.delayMs n), _, by simp [ActionFrame], by simp; rfl,
      .inl ⟨by simp [State.perform, State.doDelay], by simp, by simp⟩⟩

/-- A panel operation's own instruction, read back from the latches, takes no operands. -/
theorem exec_latched_panel {s : State} {op : HostOp} (h : isPanelOp op = true) :
    exec (s.latched op) s = panelStep op s := by
  cases op <;> first | rfl | simp [isPanelOp] at h

/-- The step of a panel operation in progress. -/
theorem panelStep_of_action {s : State} {op : HostOp} {pc : Nat} {a : Action}
    (hr : s.run = .busy op pc)
    (ha : ((stepList s.cfg op)[pc]?).bind (entryAction s.cfg) = some a) :
    panelStep op s = .next (s.perform op pc a) := by
  simp [panelStep, State.position_busy s hr, ha]

/-- The step of a panel command that is due. -/
theorem commandStep_due {s : State} {op : HostOp} {pc k : Nat} {p : PanelCmd} {a : Action}
    (hr : s.run = .busy op pc) (he : (stepList s.cfg op)[pc]? = some (.command p k))
    (ha : (commandActions s.cfg p)[k]? = some a) :
    commandStep p (commandActions s.cfg p) s = .next (s.perform op pc a) := by
  simp [commandStep, State.commandPosition, hr, he, ha]

/-- Where a command is due, its meaning and the panel operation's are the same step. -/
theorem commandStep_eq_panelStep {s : State} {op : HostOp} {pc k : Nat} {p : PanelCmd}
    (hr : s.run = .busy op pc) (he : (stepList s.cfg op)[pc]? = some (.command p k)) :
    commandStep p (commandActions s.cfg p) s = panelStep op s := by
  have hs := entryAction_isSome (c := s.cfg) (op := op) (lt_length_of_entry he)
  obtain ⟨a, ha⟩ := Option.isSome_iff_exists.mp hs
  rw [panelStep_of_action hr ha]
  exact commandStep_due hr he (by simpa [he, entryAction] using ha)

/-- A step of a panel operation in progress is that operation's step, through whichever instruction is
fetched. -/
theorem step_panel {s : State} {op : HostOp} {pc : Nat} (h0 : s.hwReset = false)
    (hr : s.run = .busy op pc) (hp : isPanelOp op = true) : step s = panelStep op s := by
  simp only [step, h0, hr, Bool.false_eq_true, if_false, State.fetchAt]
  cases he : (stepList s.cfg op)[pc]? with
  | none => exact exec_latched_panel hp
  | some e =>
    cases e with
    | plain a => exact exec_latched_panel hp
    | command p k =>
      simp only [decodeWire_opcode]
      rw [exec_command]
      exact commandStep_eq_panelStep hr he

/-- A step of an atomic operation in progress is its meaning. -/
theorem step_atomic {s : State} {op : HostOp} {pc : Nat} (h0 : s.hwReset = false)
    (hr : s.run = .busy op pc) (hp : isPanelOp op = false) : step s = exec (s.latched op) s := by
  simp [step, h0, hr, State.fetchAt, stepList_of_not_panel _ hp]

/-- Every way in which a step answers a next state. -/
theorem step_next_cases {s t : State} (h : step s = .next t) :
    (s.hwReset = true ∧ t = s.hardwareReset) ∨
    (s.hwReset = false ∧ s.run = .idle ∧ s.host = [] ∧ t = s) ∨
    (∃ w rest op, s.hwReset = false ∧ s.run = .idle ∧ s.host = w :: rest ∧
      HostOp.ofCode w.opField = some op ∧
      refusalOf (op.instr w.xField w.yField w.colorField w.rgbField w.xField) s = none ∧
      t = { s with host := rest }.load op w) ∨
    (∃ op pc a, s.hwReset = false ∧ s.run = .busy op pc ∧ isPanelOp op = true ∧
      ((stepList s.cfg op)[pc]?).bind (entryAction s.cfg) = some a ∧ t = s.perform op pc a) ∨
    (∃ op pc, s.hwReset = false ∧ s.run = .busy op pc ∧ isPanelOp op = false ∧
      exec (s.latched op) s = .next t) := by
  cases h0 : s.hwReset with
  | true =>
    refine .inl ⟨rfl, ?_⟩
    simp [step, h0] at h
    exact h.symm
  | false =>
    refine .inr ?_
    cases hr : s.run with
    | idle =>
      simp only [step, h0, hr, Bool.false_eq_true, if_false, acceptNext] at h
      cases hh : s.host with
      | nil => simp [hh] at h; exact .inl ⟨rfl, rfl, rfl, h.symm⟩
      | cons w rest =>
        simp only [hh] at h
        cases ho : HostOp.ofCode w.opField with
        | none => simp [ho] at h
        | some op =>
          simp only [ho] at h
          cases hf : refusalOf (op.instr w.xField w.yField w.colorField w.rgbField w.xField) s with
          | some r => simp [hf] at h
          | none =>
            simp only [hf, Host.Outcome.next.injEq] at h
            exact .inr (.inl ⟨w, rest, op, rfl, rfl, rfl, ho, hf, h.symm⟩)
    | busy op pc =>
      cases hp : isPanelOp op with
      | true =>
        rw [step_panel h0 hr hp] at h
        cases ha : ((stepList s.cfg op)[pc]?).bind (entryAction s.cfg) with
        | none => simp [panelStep, State.position_busy s hr, ha] at h
        | some a =>
          rw [panelStep_of_action hr ha, Host.Outcome.next.injEq] at h
          exact .inr (.inr (.inl ⟨op, pc, a, rfl, rfl, hp, ha, h.symm⟩))
      | false =>
        rw [step_atomic h0 hr hp] at h
        exact .inr (.inr (.inr ⟨op, pc, rfl, rfl, hp, h⟩))

/-- Everything an atomic host operation can do when its turn has come: it answers from a state `u` that
is `s` with its own memories written (NEW: reset). -/
theorem exec_atomic_cases {s t : State} {op : HostOp} {pc : Nat} (hr : s.run = .busy op pc)
    (hp : isPanelOp op = false) (h : exec (s.latched op) s = .next t) :
    (∃ c v, t = s.respond .ok c v none) ∨ t = s.raisePixelOutOfBounds ∨
    (t = s.resetBlock.respond .ok none none none) ∨
    (t = { s with fb := [] }.respond .ok none none none) ∨
    (∃ x y c, inBounds x y = true ∧ (c.toNat ≤ 6) ∧
      t = (s.putPixel x y c).respond .ok none none none) ∨
    (∃ w : Coord, (1 ≤ w.toNat ∧ w.toNat ≤ ditherWidthMax) ∧
      t = { s with dither := { valid := true, w := w, col := 0, par := 0, err := [] } }.respond
        .ok none none none) ∨
    (∃ raw c, s.dither.valid = true ∧
      t = { s with dither := ditherAdvance s.cfg.palette s.dither raw }.respond .ok c none none) := by
  have hpos : (s.position op).isSome = true := by simp [State.position_busy s hr]
  have hcode : ∀ q, (colorCode q).toNat ≤ 6 := by intro q; cases q <;> decide
  cases op with
  | new =>
    simp only [State.latched, HostOp.instr, exec, execNew, whenReady_of_position s hpos,
      Host.Outcome.next.injEq] at h
    exact .inr (.inr (.inl h.symm))
  | setPixel =>
    simp only [State.latched, HostOp.instr, exec, execSetPixel, whenReady_of_position s hpos] at h
    split_ifs at h with hc
    simp only [Host.Outcome.next.injEq, boundsChecked] at h
    split_ifs at h with hb
    · exact .inr (.inr (.inr (.inr (.inl ⟨_, _, _, hb, by omega, h.symm⟩))))
    · exact .inr (.inl h.symm)
  | setPixelRgb =>
    simp only [State.latched, HostOp.instr, exec, execSetPixelRgb, whenReady_of_position s hpos,
      Host.Outcome.next.injEq, boundsChecked] at h
    split_ifs at h with hb
    · exact .inr (.inr (.inr (.inr (.inl ⟨_, _, _, hb, hcode _, h.symm⟩))))
    · exact .inr (.inl h.symm)
  | getPixel =>
    simp only [State.latched, HostOp.instr, exec, execGetPixel, whenReady_of_position s hpos,
      Host.Outcome.next.injEq, boundsChecked] at h
    split_ifs at h with hb
    · exact .inl ⟨_, _, h.symm⟩
    · exact .inr (.inl h.symm)
  | clear =>
    simp only [State.latched, HostOp.instr, exec, execClear, whenReady_of_position s hpos,
      Host.Outcome.next.injEq] at h
    exact .inr (.inr (.inr (.inl h.symm)))
  | init => simp [isPanelOp] at hp
  | display => simp [isPanelOp] at hp
  | nearest =>
    simp only [State.latched, HostOp.instr, exec, execNearest, whenReady_of_position s hpos,
      Host.Outcome.next.injEq] at h
    exact .inl ⟨_, _, h.symm⟩
  | toRgb =>
    simp only [State.latched, HostOp.instr, exec, execToRgb, whenReady_of_position s hpos] at h
    cases hc : colorOfCode s.latches.color with
    | none => simp [hc] at h
    | some p =>
      simp only [hc, Host.Outcome.next.injEq] at h
      exact .inl ⟨_, _, h.symm⟩
  | ditherNew =>
    simp only [State.latched, HostOp.instr, exec, execDitherNew, whenReady_of_position s hpos] at h
    split_ifs at h with hw
    simp only [Host.Outcome.next.injEq] at h
    exact .inr (.inr (.inr (.inr (.inr (.inl ⟨_, by omega, h.symm⟩)))))
  | ditherNext =>
    simp only [State.latched, HostOp.instr, exec, execDitherNext, whenReady_of_position s hpos] at h
    split_ifs at h with hv
    simp only [Host.Outcome.next.injEq] at h
    exact .inr (.inr (.inr (.inr (.inr (.inr ⟨_, _, hv, h.symm⟩)))))

/-- Executions in a row, taken apart. -/
theorem execTimes_add {i : Instr} {s t : State} {m : Nat} (n : Nat)
    (h : execTimes i m s = .next t) : execTimes i (m + n) s = execTimes i n t := by
  induction m generalizing s with
  | zero =>
    simp only [execTimes, Host.Outcome.next.injEq] at h
    rw [Nat.zero_add, h]
  | succ m ih =>
    rw [Nat.add_right_comm]
    simp only [execTimes] at h ⊢
    split at h
    · exact ih h
    · cases h
    · cases h

/-- One execution, then the rest. -/
theorem execTimes_succ {i : Instr} {s t : State} (n : Nat) (h : exec i s = .next t) :
    execTimes i (n + 1) s = execTimes i n t := by
  simp only [execTimes, h]

end Sys2Proof.Machine
end

