-- ==== Sys2Proof/Laws/Trace.lean ====
section
/-! SUPPORT. The streams of a trace, one event at a time, and when the two agree. -/

namespace Sys2Proof.Machine

variable (bytesOf : Event → List Byte) (dc : Option Level)

@[simp] theorem taggedBytes_nil : taggedBytes bytesOf dc [] = [] := rfl

@[simp] theorem taggedBytes_cons (e : Event) (es : List Event) : taggedBytes bytesOf dc (e :: es) =
    (bytesOf e).map (fun b => (dc, b)) ++ taggedBytes bytesOf (e.dcAfter dc) es := rfl

@[simp] theorem wireStream_nil : wireStream dc [] = [] := rfl

/-- Every byte of an event's write has the level that stood before the event (00_scope rule R15). -/
@[simp] theorem wireStream_cons (e : Event) (es : List Event) : wireStream dc (e :: es) =
    e.writtenBytes.map (fun b => (dc, b)) ++ wireStream (e.dcAfter dc) es := rfl

/-- What reached the panel is the whole stream when every write reached it whole. -/
theorem deliveredStream_eq_wireStream {es : List Event}
    (h : ∀ e ∈ es, e.sentBytes = e.writtenBytes) : deliveredStream dc es = wireStream dc es := by
  induction es generalizing dc with
  | nil => rfl
  | cons e es ih =>
    have ih' := ih (e.dcAfter dc) fun e' he' => h e' (List.mem_cons_of_mem _ he')
    simp only [deliveredStream, wireStream, taggedBytes_cons] at ih' ⊢
    rw [h e List.mem_cons_self, ih']

end Sys2Proof.Machine
end

