-- ==== Sys2Proof/Tests/Slice0.lean ====
section
/-! SUPPORT. The model's own tests: ill-formed terms, a word decoded for every constructor, vectors of
spec/95_test_vectors.md run for one step each, and for every statement with hypotheses a state and
operands that meet them together. -/

namespace Sys2Proof.Tests

open Sys2Proof.Machine

/-! ### The states the tests run from -/

/-- The block after reset with operation `op` at position `pc` and these answers to come. -/
def busyState (op : HostOp) (pc : Nat) (answers : List Answer) : State :=
  { State.reset with run := .busy op pc, answers := answers }

/-- The block after reset with one word presented at the port. -/
def presented (w : Hcw) : State := { State.reset with host := [w] }

/-- The block after reset with a dither engine. -/
def engine (w col : Coord) (par : BitVec 1) (err : List (Nat × Int)) : State :=
  { State.reset with dither := { valid := true, w := w, col := col, par := par, err := err } }

/-- What an outcome's next state says. -/
def seen {α : Type} (f : State → α) : Host.Outcome State Fault Refusal → Option α
  | .next s => some (f s)
  | .fault _ => none
  | .refused _ => none

/-- The refusal of an outcome. -/
def refusal : Host.Outcome State Fault Refusal → Option Refusal
  | .next _ => none
  | .fault _ => none
  | .refused r => some r

/-- An outcome with something to see is a next state. -/
theorem next_of_seen {o : Host.Outcome State Fault Refusal} (h : seen (fun _ => ()) o = some ()) :
    ∃ t, o = .next t := by
  cases o with
  | next t => exact ⟨t, rfl⟩
  | fault _ => cases h
  | refused _ => cases h

/-! ### WellFormed -/

theorem test_wellFormed_setPixel : (Instr.setPixel 0 0 7).wellFormed = false ∧
    (Instr.setPixel 600 448 6).wellFormed = true := by decide

theorem test_wellFormed_toRgb : (Instr.toRgb 15).wellFormed = false ∧
    (Instr.toRgb 0).wellFormed = true := by decide

theorem test_wellFormed_ditherNew : (Instr.ditherNew 0).wellFormed = false ∧
    (Instr.ditherNew 601).wellFormed = false ∧ (Instr.ditherNew 1).wellFormed = true ∧
    (Instr.ditherNew 600).wellFormed = true := by decide

/-! ### Decoding: words written out in 95_test_vectors V2, V3, V4 and in 30_encoding rules R82, R90 -/

theorem test_decode_new : decodeTableWord 64 0x0000000000000000 = some .new := by decide
theorem test_decode_setPixel :
    decodeTableWord 64 0x1025701BF6000000 = some (.setPixel 599 447 6) := by decide
theorem test_decode_setPixelRgb :
    decodeTableWord 64 0x2000300000FF4000 = some (.setPixelRgb 3 0 0xFF4000) := by decide
theorem test_decode_getPixel :
    decodeTableWord 64 0x3025601BF0000000 = some (.getPixel 598 447) := by decide
theorem test_decode_clear : decodeTableWord 64 0x4000000000000000 = some .clear := by decide
theorem test_decode_init : decodeTableWord 64 0x5000000000000000 = some .init := by decide
theorem test_decode_display : decodeTableWord 64 0x6000000000000000 = some .display := by decide
theorem test_decode_nearest :
    decodeTableWord 64 0x8000000000FF8000 = some (.nearest 0xFF8000) := by decide
theorem test_decode_toRgb : decodeTableWord 64 0x9000000006000000 = some (.toRgb 6) := by decide
theorem test_decode_ditherNew :
    decodeTableWord 64 0xA000300000000000 = some (.ditherNew 3) := by decide
theorem test_decode_ditherNext :
    decodeTableWord 64 0xB000000000808080 = some (.ditherNext 0x808080) := by decide
theorem test_decode_panelSet : decodeTableWord 8 0b00000000 = some .panelSet := by decide
theorem test_decode_powerSet : decodeTableWord 8 0b00000001 = some .powerSet := by decide
theorem test_decode_powerOffSeqSet : decodeTableWord 8 0b00000011 = some .powerOffSeqSet := by decide
theorem test_decode_powerOff : decodeTableWord 8 0b00000100 = some .powerOff := by decide
theorem test_decode_boosterSoftstart :
    decodeTableWord 8 0b00000110 = some .boosterSoftstart := by decide
theorem test_decode_deepSleep : decodeTableWord 8 0b00000111 = some .deepSleep := by decide
theorem test_decode_dataStart : decodeTableWord 8 0b00010000 = some .dataStart := by decide
theorem test_decode_displayRefresh :
    decodeTableWord 8 0b00010010 = some .displayRefresh := by decide
theorem test_decode_tempSensorEn : decodeTableWord 8 0b01000001 = some .tempSensorEn := by decide
theorem test_decode_vcomDataInterval :
    decodeTableWord 8 0b01010000 = some .vcomDataInterval := by decide
theorem test_decode_vendor60 : decodeTableWord 8 0b01100000 = some .vendor60 := by decide
theorem test_decode_resolutionSet :
    decodeTableWord 8 0b01100001 = some .resolutionSet := by decide
theorem test_decode_vendorTuningE3 :
    decodeTableWord 8 0b11100011 = some .vendorTuningE3 := by decide

/-- Undefined encodings (30_encoding rules R91, R92). -/
theorem test_decode_undefined : decodeTableWord 64 0x7000000000000000 = none ∧
    decodeTableWord 64 0xF000000000000000 = none ∧ decodeTableWord 8 0x02 = none := by decide

/-! ### Vectors of 95_test_vectors, one step each -/

/-- V6.13: NEW leaves no pixel written and no session. -/
theorem test_new : seen (fun t => (readByte t.fb 0, t.sess, t.resp.status))
    (exec .new { State.reset with fb := [(0, 0x01)], sess := .asleep }) =
      some (0x11, .unknown, .ok) := by decide

/-- V4.1: the high nibble of byte 0. -/
theorem test_setPixel_high : seen (fun t => (readByte t.fb 0, readByte t.fb 1))
    (exec (.setPixel 0 0 0) State.reset) = some (0x01, 0x11) := by decide

/-- V4.3: the low nibble of the last byte. -/
theorem test_setPixel_last : seen (fun t => readByte t.fb 134399)
    (exec (.setPixel 599 447 6) State.reset) = some 0x16 := by decide

/-- V4.15: RED wins the tie with ORANGE. -/
theorem test_setPixelRgb : seen (fun t => readByte t.fb 1)
    (exec (.setPixelRgb 3 0 0xFF4000) State.reset) = some 0x14 := by decide

/-- V4.16: out of bounds. -/
theorem test_setPixelRgb_outOfBounds : seen (fun t => (statusCode t.resp.status, t.fb))
    (exec (.setPixelRgb 600 0 0) State.reset) = some (5, []) := by decide

/-- V4.11: the low nibble of the last byte. -/
theorem test_getPixel : seen (fun t => t.resp.color)
    (exec (.getPixel 599 447) { State.reset with fb := [(134399, 0x46)] }) = some 6 := by decide

/-- V4.10: out of bounds. -/
theorem test_getPixel_outOfBounds : seen (fun t => statusCode t.resp.status)
    (exec (.getPixel 600 447) State.reset) = some 5 := by decide

/-- V4.17. -/
theorem test_clear : seen (fun t => t.fb)
    (exec .clear { State.reset with fb := [(0, 0x01)] }) = some [] := by decide

/-- V2.4: mid grey is nearest to ORANGE. -/
theorem test_nearest : seen (fun t => t.resp.color) (exec (.nearest 0x808080) State.reset) =
    some 6 := by decide

/-- V2.16: a three-way tie, the lowest code wins. -/
theorem test_nearest_tie : seen (fun t => t.resp.color) (exec (.nearest 0x00FFFF) State.reset) =
    some 1 := by decide

/-- V2.36. -/
theorem test_toRgb : seen (fun t => t.resp.rgb) (exec (.toRgb 6) State.reset) =
    some 0xFF8000 := by decide

/-- V2.37. -/
theorem test_toRgb_refused : refusal (exec (.toRgb 7) State.reset) = some (.illegalColor 7) := by
  decide

/-- V3.7: a new engine zeroes every cell. -/
theorem test_ditherNew : seen (fun t => t.dither)
    (exec (.ditherNew 3) (engine 3 2 0 [(8, -26)])) =
      some { valid := true, w := 3, col := 0, par := 0, err := [] } := by decide

/-- V3.7: the widths refused. -/
theorem test_ditherNew_refused : refusal (exec (.ditherNew 0) State.reset) =
    some (.badRowWidth 0) ∧ refusal (exec (.ditherNew 601) State.reset) =
      some (.badRowWidth 601) := by decide

/-- V3.2, operation 1: red and blue cells, and the position. -/
theorem test_ditherNext : seen (fun t => (t.resp.color, t.dither.col,
      [0, 1].map fun r => [0, 1, 2].map fun k =>
        (readErr t.dither.err .red r k, readErr t.dither.err .blue r k)))
    (exec (.ditherNext 0x808080) (engine 3 0 0 [])) =
      some (6, 1, [[(0, 0), (-55, 56), (0, 0)], [(-39, 40), (-7, 8), (0, 0)]]) := by
  decide +kernel

/-- V3.5, operation 2: in a row of one pixel only the cell below is pushed to, from the other parity. -/
theorem test_ditherNext_width1 : seen (fun t => (t.resp.color, t.dither.col, t.dither.par,
      [0, 1].map fun r => (readErr t.dither.err .red r 0, readErr t.dither.err .blue r 0)))
    (exec (.ditherNext 0xC81E1E) (engine 1 0 1 [(1, -17), (3, 9), (5, 9)])) =
      some (4, 0, 0, [(-22, 12), (0, 0)]) := by decide +kernel

/-- V6.3: the first step of INIT faults. -/
theorem test_init_fault :
    seen (fun t => (t.run, t.resp.status, t.sess, t.rstOut, t.resp.info))
      (exec .init (busyState .init 0 [.fault 9 0])) =
        some (.idle, .resetPinFault, .unknown, none, 9) := by decide +kernel

/-- P2, step 45: the end of the wakeup. -/
theorem test_init_awake : seen (fun t => (t.run, t.sess, t.trace))
    (exec .init (busyState .init 45 [.success .low])) =
      some (.busy .init 46, .awake, [.wireWrite [0x37] .ok]) := by decide +kernel

/-- V6.7: the last step of DISPLAY faults. -/
theorem test_display_fault :
    seen (fun t => (t.run, t.resp.status, t.sess))
      (exec .display (busyState .display 71 [.fault 9 0])) =
        some (.idle, .dataCommandPinFault, .unknown) := by decide +kernel

/-- P3, step 56: a busy line that reads HIGH is not yet busy. -/
theorem test_display_wait : seen (fun t => (t.run, t.polls, t.trace))
    (exec .display (busyState .display 56 [.success .high])) =
      some (.busy .display 56, 1, [.busyRead (.level .high)]) := by decide +kernel

/-- The opcode and data writes of a command at these positions of DISPLAY's list (program P2). -/
def writes (i : Instr) (opcodeAt dataAt : Nat) : Option (List Event) × Option (List Event) :=
  (seen (fun t => t.trace) (exec i (busyState .display opcodeAt [.success .low])),
    seen (fun t => t.trace) (exec i (busyState .display dataAt [.success .low])))

theorem test_panelSet : writes .panelSet 6 8 =
    (some [.wireWrite [0x00] .ok], some [.wireWrite [0xEF, 0x08] .ok]) := by decide +kernel
theorem test_powerSet : writes .powerSet 10 12 =
    (some [.wireWrite [0x01] .ok], some [.wireWrite [0x37, 0x00, 0x23, 0x23] .ok]) := by
  decide +kernel
theorem test_powerOffSeqSet : writes .powerOffSeqSet 14 16 =
    (some [.wireWrite [0x03] .ok], some [.wireWrite [0x00] .ok]) := by decide +kernel
theorem test_boosterSoftstart : writes .boosterSoftstart 18 20 =
    (some [.wireWrite [0x06] .ok], some [.wireWrite [0xC7, 0xC7, 0x1D] .ok]) := by decide +kernel
theorem test_tempSensorEn : writes .tempSensorEn 22 24 =
    (some [.wireWrite [0x41] .ok], some [.wireWrite [0x00] .ok]) := by decide +kernel
theorem test_vcomDataInterval : writes .vcomDataInterval 26 28 =
    (some [.wireWrite [0x50] .ok], some [.wireWrite [0x37] .ok]) := by decide +kernel
theorem test_vendor60 : writes .vendor60 30 32 =
    (some [.wireWrite [0x60] .ok], some [.wireWrite [0x20] .ok]) := by decide +kernel
theorem test_resolutionSet : writes .resolutionSet 34 36 =
    (some [.wireWrite [0x61] .ok], some [.wireWrite [0x02, 0x58, 0x01, 0xC0] .ok]) := by
  decide +kernel
theorem test_vendorTuningE3 : writes .vendorTuningE3 38 40 =
    (some [.wireWrite [0xE3] .ok], some [.wireWrite [0xAA] .ok]) := by decide +kernel
theorem test_deepSleep : writes .deepSleep 66 68 =
    (some [.wireWrite [0x07] .ok], some [.wireWrite [0xA5] .ok]) := by decide +kernel
theorem test_dataStart : writes .dataStart 51 52 =
    (some [.wireWrite [0x10] .ok], some [.dcSet .high .ok]) := by decide +kernel
theorem test_powerOff : writes .powerOff 55 61 =
    (some [.wireWrite [0x04] .ok], some [.wireWrite [0x04] .ok]) := by decide +kernel
theorem test_displayRefresh : writes .displayRefresh 57 58 =
    (some [.dcSet .low .ok], some [.wireWrite [0x12] .ok]) := by decide +kernel

/-- 00_scope rule R15: a failed write has all its bytes in the wire stream, with the level last written. -/
theorem test_wireStream_failedWrite :
    wireStream none [.dcSet .low .ok, .wireWrite [0x07] .ok, .dcSet .high .ok,
      .wireWrite [0xA5] (.fault 9 [])] = [(some .low, 0x07), (some .high, 0xA5)] ∧
    deliveredStream none [.dcSet .low .ok, .wireWrite [0x07] .ok, .dcSet .high .ok,
      .wireWrite [0xA5] (.fault 9 [])] = [(some .low, 0x07)] := by decide

/-- 30_encoding rules R83, R84 and 10_state rule R22: WireFault with code 6 and triple 0xFF8000, asleep. -/
theorem test_rsp : ({ State.reset with
      sess := .asleep, resp := ⟨true, .wireFault, 0x6, 0xFF8000, 0⟩ } : State).rsp = 0x46FF8000 ∧
    ({ State.reset with sess := .asleep } : State).sessField = 2 := by decide

/-! ### Witnesses: each statement's hypotheses can be met -/

/-- The port is ready, or the operation is in progress: for NearestAnswersTheNearestColor,
ToRgbAnswersTheTriple, ClearMakesEveryPixelWhite and NewResetsTheBlock, and part of others. -/
theorem witness_mayRun (op : HostOp) : MayRun op State.reset ∧ MayRun op (busyState op 0 []) :=
  ⟨.inl rfl, .inr ⟨0, rfl⟩⟩

theorem witness_FieldsReachTheirOperands (o : HostOp) :
    (Hcw.assemble o.code 0xFFFF 0xFFFF 0xF 0xFFFFFF).extractLsb' 60 4 = o.code ∧
      (Hcw.assemble o.code 0 0 0 0).extractLsb' 60 4 = o.code := by cases o <;> decide

theorem witness_UndefinedInputsAreRefused :
    (∀ w ∈ [(0x7000000000000000 : Hcw), 0xC000000000000000, 0xF000000000000000],
      (presented w).hwReset = false ∧ (presented w).run = .idle ∧ (presented w).host = [w] ∧
        (w.opField = 0x7 ∨ 0xC ≤ w.opField.toNat)) ∧
    (∀ w ∈ [(0x1000000007000000 : Hcw), 0x100000000F000000, 0x9000000007000000],
      (presented w).hwReset = false ∧ (presented w).run = .idle ∧ (presented w).host = [w] ∧
        (w.opField = 0x1 ∨ w.opField = 0x9) ∧ 7 ≤ w.colorField.toNat) ∧
    MayRun .setPixel State.reset ∧ MayRun .toRgb State.reset ∧ 7 ≤ (7 : Code).toNat ∧
    7 ≤ (15 : Code).toNat :=
  ⟨by
      intro w h
      simp only [List.mem_cons, List.not_mem_nil, or_false] at h
      rcases h with rfl | rfl | rfl <;> exact ⟨rfl, rfl, rfl, by decide⟩,
    by
      intro w h
      simp only [List.mem_cons, List.not_mem_nil, or_false] at h
      rcases h with rfl | rfl | rfl <;> exact ⟨rfl, rfl, rfl, by decide, by decide⟩,
    .inl rfl, .inl rfl, by decide, by decide⟩

/-- A pixel write, and a DITHER_NEXT with an engine. -/
theorem witness_PortAcceptsAWord :
    (∃ (s : State) (w : Hcw) (rest : List Hcw) (i : Instr), s.hwReset = false ∧ s.run = .idle ∧ s.host = w :: rest ∧
      decodeHost w = .ok i ∧ i.wellFormed = true ∧
      ∀ rgb, i = .ditherNext rgb → s.dither.valid = true) ∧
    (∃ (s : State) (w : Hcw) (rest : List Hcw) (rgb : Rgb24), s.hwReset = false ∧ s.run = .idle ∧ s.host = w :: rest ∧
      decodeHost w = .ok (.ditherNext rgb) ∧ s.dither.valid = true) :=
  ⟨⟨presented 0x1025701BF6000000, 0x1025701BF6000000, [], .setPixel 599 447 6, rfl, rfl, rfl,
      by decide, by decide, by simp⟩,
    ⟨{ engine 3 0 0 [] with host := [0xB000000000808080] }, 0xB000000000808080, [], 0x808080,
      rfl, rfl, rfl, by decide, rfl⟩⟩

/-- An atomic operation, and a panel command inside a panel operation. -/
theorem witness_StepRunsTheFetchedInstruction :
    (∃ s : State, s.hwReset = false ∧ s.run = .busy .clear 0 ∧ s.fetchAt .clear 0 = .ok .clear) ∧
    (∃ s : State, s.hwReset = false ∧ s.run = .busy .display 53 ∧
      s.fetchAt .display 53 = .ok .dataStart) :=
  ⟨⟨busyState .clear 0 [], rfl, rfl, by decide⟩,
    ⟨busyState .display 53 [], rfl, rfl, by decide +kernel⟩⟩

theorem witness_IdlePortWaits :
    State.reset.hwReset = false ∧ State.reset.run = .idle ∧ State.reset.host = [] := by decide

theorem witness_BusyStepIgnoresTheHost :
    ∃ s t : State, s.hwReset = false ∧ s.run ≠ .idle ∧ step s = .next t :=
  ⟨busyState .clear 0 [], _, rfl, by decide, rfl⟩

theorem witness_OtherOperationIsTurnedAway :
    ∃ s : State, hostOpOf .clear = some .clear ∧ s.run = .busy .init 4 ∧ HostOp.init ≠ .clear :=
  ⟨busyState .init 4 [], rfl, rfl, by decide⟩

theorem witness_NearestOfAPaletteTripleIsItself : paletteDistinct takenPalette = true := by
  decide +kernel

/-- Both clauses of DITHER_NEW, at the ends of their ranges. -/
theorem witness_DitherNewStartsAFreshEngine :
    (1 ≤ (1 : Coord).toNat ∧ (1 : Coord).toNat ≤ 600) ∧
    (1 ≤ (600 : Coord).toNat ∧ (600 : Coord).toNat ≤ 600) ∧
    ((0 : Coord).toNat = 0 ∨ 600 < (0 : Coord).toNat) ∧
    ((601 : Coord).toNat = 0 ∨ 600 < (601 : Coord).toNat) := by decide

/-- An engine at the last column of its row, and one before it. -/
theorem witness_DitherNextAnswersNearestAdjusted :
    (MayRun .ditherNext (engine 3 2 1 []) ∧ (engine 3 2 1 []).dither.valid = true ∧
      (engine 3 2 1 []).dither.col.toNat + 1 = (engine 3 2 1 []).dither.w.toNat) ∧
    (MayRun .ditherNext (engine 3 0 0 []) ∧ (engine 3 0 0 []).dither.valid = true ∧
      (engine 3 0 0 []).dither.col.toNat + 1 < (engine 3 0 0 []).dither.w.toNat) :=
  ⟨⟨.inl rfl, rfl, by decide⟩, ⟨.inl rfl, rfl, by decide⟩⟩

theorem witness_DitherNextDiffusesTheResidual :
    ∃ (s t : State) (rgb : Rgb24), MayRun .ditherNext s ∧ s.dither.valid = true ∧
      s.dither.col.toNat < s.dither.w.toNat ∧ sparseWf 0 s.dither.err = true ∧
      exec (.ditherNext rgb) s = .next t := by
  obtain ⟨t, ht⟩ := next_of_seen (o := exec (.ditherNext 0x808080) (engine 3 0 0 [(8, -26)]))
    (by decide +kernel)
  exact ⟨_, t, _, .inl rfl, rfl, by decide, by decide, ht⟩

theorem witness_DitherNextNeedsAnEngine :
    (MayRun .ditherNext State.reset ∧ State.reset.dither.valid = false) ∧
    ((presented 0xB000000000808080).hwReset = false ∧
      (presented 0xB000000000808080).run = .idle ∧
      (presented 0xB000000000808080).host = [0xB000000000808080] ∧
      Hcw.opField 0xB000000000808080 = 0xB ∧
      (presented 0xB000000000808080).dither.valid = false) :=
  ⟨⟨.inl rfl, rfl⟩, rfl, rfl, rfl, by decide, rfl⟩

/-- A fresh engine is within its bounds. -/
theorem fresh_engine_inv (w : Coord) (h : 1 ≤ w.toNat ∧ w.toNat ≤ 600) (r : Run) :
    DitherInv { engine w 0 0 [] with run := r } := by
  intro _
  refine ⟨⟨h.1, h.2, ?_⟩, fun c r k => ?_⟩
  · show 0 < w.toNat
    omega
  · have hz : readErr [] c r k = 0 := rfl
    simp only [engine, hz, cellBound]
    split_ifs <;> omega

/-- The widest engine takes a pixel. -/
theorem witness_DitherBoundsAreKept :
    ∃ s t : State, (DitherInv s ∧ MemoryWf s) ∧ step s = .next t ∧ s.dither.valid = true := by
  obtain ⟨t, ht⟩ := next_of_seen (o := step { engine 600 0 0 [] with run := .busy .ditherNext 0 })
    (by decide +kernel)
  exact ⟨_, t, ⟨fresh_engine_inv 600 (by decide) _, rfl, rfl⟩, ht, rfl⟩

theorem witness_ExactPaletteStreamKeepsZeroError :
    MayRun .ditherNext (engine 3 0 0 []) ∧ (engine 3 0 0 []).dither.valid = true ∧
      (engine 3 0 0 []).dither.col.toNat < (engine 3 0 0 []).dither.w.toNat ∧
      sparseWf 0 (engine 3 0 0 []).dither.err = true ∧
      paletteDistinct (engine 3 0 0 []).cfg.palette = true ∧
      ∀ c r k, readErr (engine 3 0 0 []).dither.err c r k = 0 :=
  ⟨.inl rfl, rfl, by decide, rfl, by decide +kernel, fun _ _ _ => rfl⟩

theorem witness_DiffusionLosesAtMostThree : (0 : Int) ≤ 0 ∧ (-1 : Int) < 0 := by decide

/-- The last pixel, a low nibble, and pixel (0, 0), a high nibble. -/
theorem witness_SetPixelWritesOneNibble :
    MayRun .setPixel State.reset ∧ MemoryWf State.reset ∧ (6 : Code).toNat ≤ 6 ∧
      (599 : Coord).toNat < 600 ∧ (447 : Coord).toNat < 448 ∧
      ((0 : Coord).toNat % 2 = 0 ↔ State.reset.cfg.nibbleOrder = .evenHigh) ∧
      ¬((599 : Coord).toNat % 2 = 0 ↔ State.reset.cfg.nibbleOrder = .evenHigh) :=
  ⟨.inl rfl, ⟨rfl, rfl⟩, by decide, by decide, by decide, by decide, by decide⟩

theorem witness_PixelReadsBack :
    ∃ t : State, State.reset.run = .idle ∧ MemoryWf State.reset ∧ (6 : Code).toNat ≤ 6 ∧
      (599 : Coord).toNat < 600 ∧ (447 : Coord).toNat < 448 ∧
      exec (.setPixel 599 447 6) State.reset = .next t ∧
      ((598 : Coord) ≠ 599 ∨ (447 : Coord) ≠ 447) := by
  obtain ⟨t, ht⟩ := next_of_seen (o := exec (.setPixel 599 447 6) State.reset) (by decide +kernel)
  exact ⟨t, rfl, ⟨rfl, rfl⟩, by decide, by decide, by decide, ht, by decide⟩

/-- One coordinate too large, either of them. -/
theorem witness_OutOfBoundsPixelChangesNothing :
    (600 ≤ (600 : Coord).toNat ∨ 448 ≤ (0 : Coord).toNat) ∧
    (600 ≤ (0 : Coord).toNat ∨ 448 ≤ (448 : Coord).toNat) ∧ (6 : Code).toNat ≤ 6 ∧
    MayRun .setPixel State.reset ∧ MayRun .setPixelRgb State.reset ∧ MayRun .getPixel State.reset :=
  ⟨by decide, by decide, by decide, .inl rfl, .inl rfl, .inl rfl⟩

/-- In bounds at the last pixel, out of bounds one beyond it. -/
theorem witness_SetPixelRgbIsNearestThenSetPixel :
    MayRun .setPixelRgb State.reset ∧ MemoryWf State.reset ∧ (599 : Coord).toNat < 600 ∧
      (447 : Coord).toNat < 448 ∧ (600 ≤ (600 : Coord).toNat ∨ 448 ≤ (447 : Coord).toNat) :=
  ⟨.inl rfl, ⟨rfl, rfl⟩, by decide, by decide, by decide⟩

theorem witness_GetPixelAnswersTheNibble :
    MayRun .getPixel State.reset ∧ (599 : Coord).toNat < 600 ∧ (447 : Coord).toNat < 448 :=
  ⟨.inl rfl, by decide, by decide⟩

/-- The corners, and two pixels of one byte. -/
theorem witness_PixelMapIsABijection :
    (599 : Coord).toNat < 600 ∧ (447 : Coord).toNat < 448 ∧ 134399 < 134400 ∧
      pixelAddr 598 447 = pixelAddr 599 447 ∧
      inHighNibble .evenLow 599 = inHighNibble .evenLow 599 := by decide

theorem witness_FramebufferStaysLegal :
    ∃ s t : State, (FbLegal s ∧ MemoryWf s) ∧ step s = .next t ∧ t.fb ≠ s.fb :=
  ⟨{ busyState .clear 0 [] with fb := [(0, 0x66)] }, _,
    ⟨fun a => by
      by_cases h : 0 = a
      · simp [readByte, sparseRead, h]; decide
      · simp [readByte, sparseRead, h]; decide, by decide, rfl⟩, rfl, by decide⟩

theorem witness_MemoriesStayCanonical :
    ∃ s t : State, MemoryWf s ∧ step s = .next t ∧ s.fb ≠ [] ∧ s.dither.err ≠ [] := by
  obtain ⟨t, ht⟩ := next_of_seen
    (o := step { engine 3 0 0 [(8, -26)] with fb := [(0, 0x66)], run := .busy .ditherNext 0 })
    (by decide +kernel)
  exact ⟨_, t, ⟨by decide, by decide⟩, ht, by decide, by decide⟩

theorem witness_ImageIsTheFramebufferInOrder : FbLegal State.reset ∧ 134399 < 134400 :=
  ⟨fun _ => by show legalByte 0x11 = true; decide, by decide⟩

theorem witness_HardwareResetHasTheEffectOfNew :
    ∃ s n : State, s.hwReset = true ∧ s.run = .busy .display 53 ∧
      exec .new { s with run := .idle } = .next n :=
  ⟨{ busyState .display 53 [] with hwReset := true }, _, rfl, rfl, rfl⟩

/-- DISPLAY about to write an opcode, its invariants holding: for SequencerStaysInItsList,
SelectLineIsDrivenBeforeWrites and ResponseIsValidOnlyBetweenOperations. -/
theorem witness_mid_display :
    ∃ s t : State, SequencerInv s ∧ SelectLineInv s ∧ ResponseInv s ∧ step s = .next t ∧
      s.run = .busy .display 51 := by
  obtain ⟨t, ht⟩ := next_of_seen
    (o := step { busyState .display 51 [] with sess := .awake, dcOut := some .low })
    (by decide +kernel)
  refine ⟨_, t, ?_, ?_, ?_, ht, rfl⟩
  · show 51 < (stepList takenConfig .display).length ∧
      (Session.awake = .awake ↔ (wakeupList takenConfig).length ≤ 51)
    decide +kernel
  · intro op pc c h
    cases h
    refine ⟨fun _ => rfl, fun h => ?_⟩
    have he : (stepList takenConfig .display)[51]? = some (.command .dataStart 1) := by
      decide +kernel
    exact absurd (he.symm.trans h) (by simp)
  · intro h
    cases h

/-- An operation that ends, and one that goes on. -/
theorem witness_OperationEndsWithItsResponse :
    seen (fun t => t.run) (step (busyState .clear 0 [])) = some .idle ∧
      seen (fun t => t.run) (step (busyState .init 1 [])) = some (.busy .init 2) := by
  decide +kernel

theorem witness_OnlyPanelOperationsReachThePanel :
    ∃ t : State, hostOpOf .clear = some .clear ∧ isPanelOp .clear = false ∧
      exec .clear State.reset = .next t ∧ HostOp.clear ≠ .new :=
  ⟨_, rfl, rfl, rfl, by decide⟩

/-- A panel operation, and a panel command. -/
theorem witness_PanelOperationsLeaveTheMemories :
    (∃ t : State, (∀ op, hostOpOf .init = some op → isPanelOp op = true) ∧
      exec .init State.reset = .next t) ∧
    (∃ s t : State, (∀ op, hostOpOf .panelSet = some op → isPanelOp op = true) ∧
      exec .panelSet s = .next t) := by
  obtain ⟨t, ht⟩ := next_of_seen (o := exec .init State.reset) (by decide +kernel)
  obtain ⟨u, hu⟩ := next_of_seen (o := exec .panelSet (busyState .display 5 [])) (by decide +kernel)
  exact ⟨⟨t, (fun op h => by cases h; rfl), ht⟩, ⟨_, u, (fun op h => by cases h), hu⟩⟩

theorem witness_ConfigurationIsFixedAndTraceGrows :
    ∃ t : State, step (busyState .init 1 []) = .next t := next_of_seen (by decide +kernel)

/-- The first and the last position of both lists, and an idle port. -/
theorem witness_PanelOperationsStepFromEveryPosition :
    53 < (stepList takenConfig .init).length ∧ 71 < (stepList takenConfig .display).length ∧
      (busyState .init 53 []).run = .busy .init 53 ∧
      (busyState .display 71 []).run = .busy .display 71 ∧ (State.reset.run = .idle ∧ 0 = 0) :=
  ⟨by decide +kernel, by decide +kernel, rfl, rfl, rfl, rfl⟩

/-- A step of the list an operation has under the configuration the spec takes. -/
theorem stepAt_busyState {op : HostOp} {pc : Nat} {a : Action} (as : List Answer)
    (hp : isPanelOp op = true)
    (h : ((stepList takenConfig op)[pc]?).bind (entryAction takenConfig) = some a) :
    StepAt (busyState op pc as) op pc a := ⟨hp, rfl, h⟩

/-- Each kind of step, where the lists have it, whatever answers are to come, and both answers: for
RstSetStep, DcSetStep, WireWriteStep, DelayStep, WaitSampleStep. -/
theorem witness_primitives (as : List Answer) :
    StepAt (busyState .init 0 as) .init 0 (.rstSet .low) ∧
    StepAt (busyState .init 5 as) .init 5 (.dcSet .low) ∧
    StepAt (busyState .display 53 as) .display 53 (.wireWrite .framebuffer) ∧
    StepAt (busyState .init 1 as) .init 1 (.delayMs 1) ∧
    StepAt (busyState .display 4 as) .display 4 (.waitBusy .idle) ∧
    StepAt (busyState .display 71 as) .display 71 (.dcSet .low) ∧
    (busyState .init 0 [.success .high]).nextAnswer = .success .high ∧
    (busyState .init 0 [.fault 9 2]).nextAnswer = .fault 9 2 := by
  refine ⟨stepAt_busyState _ rfl ?_, stepAt_busyState _ rfl ?_, stepAt_busyState _ rfl ?_,
    stepAt_busyState _ rfl ?_, stepAt_busyState _ rfl ?_, stepAt_busyState _ rfl ?_, rfl, rfl⟩ <;>
  decide +kernel

/-- The awaited level, the other level, and a poll limit reached and not reached (V5.10). -/
theorem witness_WaitSampleStep :
    (WaitTarget.idle = .idle ↔ Level.high = takenConfig.busyIdle) ∧
    ¬(WaitTarget.idle = .idle ↔ Level.low = takenConfig.busyIdle) ∧
    (∀ n, some 3 = some n → 1 + 1 < n) ∧ (∀ n, some 3 = some n → n ≤ 2 + 1) := by
  refine ⟨by decide, by decide, fun n h => ?_, fun n h => ?_⟩ <;> · cases h; decide

theorem witness_FirstFaultAbortsTheOperation :
    ∃ s : State, StepAt s .display 53 (.wireWrite .framebuffer) ∧
      faultKind (.wireWrite .framebuffer) = some .wireFault ∧ s.nextAnswer = .fault 9 2 :=
  ⟨busyState .display 53 [.fault 9 2], stepAt_busyState _ rfl (by decide +kernel), rfl, rfl⟩

theorem witness_WaitCanHangForEver :
    ∃ s : State, s.hwReset = false ∧ StepAt s .display 56 (.waitBusy .busy) ∧ s.cfg.pollLimit = none ∧
      Level.high ≠ awaitedLevel s.cfg .busy ∧ s.answers = List.replicate 2 (.success .high) :=
  ⟨busyState .display 56 (List.replicate 2 (.success .high)), rfl,
    stepAt_busyState _ rfl (by decide +kernel), rfl, by decide, rfl⟩

/-- Where DISPLAY's list begins each command, four successes to come: for ConfiguredCommandsAreSent,
ConstantCommandsAreSent, DataStartSendsTheImage and DatalessCommandsAreSent. -/
theorem witness_commands_are_sent :
    ∀ p ∈ [(PanelCmd.panelSet, 5), (.powerSet, 9), (.powerOffSeqSet, 13), (.boosterSoftstart, 17),
      (.tempSensorEn, 21), (.vcomDataInterval, 25), (.vendor60, 29), (.resolutionSet, 33),
      (.vendorTuningE3, 37), (.dataStart, 50), (.powerOff, 54), (.displayRefresh, 57),
      (.deepSleep, 65)],
      (stepList (busyState .display p.2 (List.replicate 4 (.success .low))).cfg .display)[p.2]? =
          some (.command p.1 0) ∧
        (busyState .display p.2 (List.replicate 4 (.success .low))).run = .busy .display p.2 ∧
        (busyState .display p.2 (List.replicate 4 (.success .low))).answers =
          [.success .low, .success .low, .success .low, .success .low] := by decide +kernel

theorem witness_CommandOutOfPlaceIsRefused (c : PanelCmd) :
    ∀ op pc k, State.reset.run = .busy op pc →
      (stepList State.reset.cfg op)[pc]? ≠ some (.command c k) := by
  intro op pc k h
  cases h

theorem witness_CommandStepIsTheOperationsStep :
    ∃ s : State, s.hwReset = false ∧ s.run = .busy .display 53 ∧
      (stepList s.cfg .display)[53]? = some (.command .dataStart 3) :=
  ⟨busyState .display 53 [], rfl, rfl, by decide +kernel⟩

/-- Item 3 present, as the spec takes it, and absent: for CommandCountsAndDelays too. -/
theorem witness_StepListsAreTheSpecs : takenConfig.powerOffSeqPresent = true ∧
    { takenConfig with powerOffSeqPresent := false }.powerOffSeqPresent = false := by decide

/-- `n` successes. -/
def successes (n : Nat) (l : Level) : List Answer := List.replicate n (.success l)

theorem successes_spec (n : Nat) (l : Level) :
    allSuccess (successes n l) = true ∧ (successes n l).length = n := by
  simp [allSuccess, successes]

/-- Any answers can be to come. -/
theorem exists_busyState (op : HostOp) (answers : List Answer) :
    ∃ s : State, s.run = .busy op 0 ∧ s.cfg = takenConfig ∧ s.answers = answers :=
  ⟨busyState op 0 answers, rfl, rfl, rfl⟩

theorem witness_InitCompletes :
    ∃ (s : State) (n : Nat) (before after : List Answer), s.run = .busy .init 0 ∧
      s.cfg.powerOffSeqPresent = true ∧ s.cfg.pollLimit = none ∧ allSuccess before = true ∧
      before.length = 2 ∧ allSuccess after = true ∧ after.length = 46 ∧
      s.answers = before ++ waitAnswers s.cfg .idle n ++ after := by
  obtain ⟨h1, h2⟩ := successes_spec 2 .low
  obtain ⟨h3, h4⟩ := successes_spec 46 .low
  obtain ⟨s, hr, hc, ha⟩ := exists_busyState .init
    (successes 2 .low ++ waitAnswers takenConfig .idle 2 ++ successes 46 .low)
  refine ⟨s, 2, _, _, hr, ?_, ?_, h1, h2, h3, h4, ?_⟩
  · rw [hc]; rfl
  · rw [hc]; rfl
  · rw [hc, ha]

theorem witness_DisplayCompletes :
    ∃ (s : State) (n1 n2 n3 n4 : Nat) (a1 a2 a3 a4 a5 : List Answer), s.run = .busy .display 0 ∧
      s.cfg.powerOffSeqPresent = true ∧ s.cfg.pollLimit = none ∧
      allSuccess (a1 ++ a2 ++ a3 ++ a4 ++ a5) = true ∧ a1.length = 2 ∧ a2.length = 50 ∧
      a3.length = 2 ∧ a4.length = 2 ∧ a5.length = 6 ∧
      s.answers = a1 ++ waitAnswers s.cfg .idle n1 ++ a2 ++ waitAnswers s.cfg .busy n2 ++ a3 ++
        waitAnswers s.cfg .busy n3 ++ a4 ++ waitAnswers s.cfg .idle n4 ++ a5 := by
  obtain ⟨h1, l1⟩ := successes_spec 2 .low
  obtain ⟨h2, l2⟩ := successes_spec 50 .low
  obtain ⟨h5, l5⟩ := successes_spec 6 .low
  obtain ⟨s, hr, hc, ha⟩ := exists_busyState .display
    (successes 2 .low ++ waitAnswers takenConfig .idle 0 ++ successes 50 .low ++
      waitAnswers takenConfig .busy 1 ++ successes 2 .low ++ waitAnswers takenConfig .busy 0 ++
      successes 2 .low ++ waitAnswers takenConfig .idle 2 ++ successes 6 .low)
  refine ⟨s, 0, 1, 0, 2, _, _, _, _, _, hr, ?_, ?_, ?_, l1, l2, l1, l1, l5, ?_⟩
  · rw [hc]; rfl
  · rw [hc]; rfl
  · simp only [allSuccess, List.all_append, Bool.and_eq_true] at *
    exact ⟨⟨⟨⟨h1, h2⟩, h1⟩, h1⟩, h5⟩
  · rw [hc, ha]

end Sys2Proof.Tests
end

section
/-! SUPPORT. What one step does to the parts of the state the invariants speak of, derived once from
`perform_cases`, `exec_atomic_cases` and `step_next_cases`. -/

namespace Sys2Proof.Machine

/-! ### One step of a step list -/

/-- No step of a step list touches the memories, the latches, the configuration or the inputs (46_driver
rule R224). -/
theorem perform_sameMemories (s : State) (op : HostOp) (pc : Nat) (a : Action) :
    SameMemories s (s.perform op pc a) := by
  obtain ⟨u, e, ⟨hlat, hfb, -, -, -, hdit, hcfg, hhost, hrst⟩, -, h⟩ := perform_cases s op pc a
  obtain ⟨ht, -⟩ | ⟨k, i, ht, -⟩ | ⟨w, -, ht, -⟩ := h
  · simp [ht, SameMemories, hlat, hfb, hdit, hcfg, hhost, hrst]
  · simp [ht, SameMemories, hlat, hfb, hdit, hcfg, hhost, hrst]
  · simp [ht, SameMemories, hlat, hfb, hdit, hcfg, hhost, hrst]

@[simp] theorem State.perform_fb (s : State) (op : HostOp) (pc : Nat) (a : Action) :
    (s.perform op pc a).fb = s.fb := (perform_sameMemories s op pc a).1

@[simp] theorem State.perform_dither (s : State) (op : HostOp) (pc : Nat) (a : Action) :
    (s.perform op pc a).dither = s.dither := (perform_sameMemories s op pc a).2.1

@[simp] theorem State.perform_cfg (s : State) (op : HostOp) (pc : Nat) (a : Action) :
    (s.perform op pc a).cfg = s.cfg := (perform_sameMemories s op pc a).2.2.2.1

/-- A step of a step list leaves exactly one event (10_state rule R26). -/
theorem perform_trace (s : State) (op : HostOp) (pc : Nat) (a : Action) :
    ∃ e, (s.perform op pc a).trace = s.trace ++ [e] := by
  obtain ⟨u, e, -, htr, ⟨ht, -⟩ | ⟨k, i, ht, -⟩ | ⟨w, -, ht, -⟩⟩ := perform_cases s op pc a
  · exact ⟨e, by simp [ht, htr]⟩
  · exact ⟨e, by simp [ht, htr]⟩
  · exact ⟨e, by simp [ht, htr]⟩

/-- Where a step of a step list leaves the sequencer: the operation has ended, or the next position is
entered with the select line as a `DcSet` left it, or a wait goes on. -/
theorem perform_run_cases (s : State) (op : HostOp) (pc : Nat) (a : Action) :
    ((s.perform op pc a).run = .idle ∧ (s.perform op pc a).sess ≠ .awake) ∨
    (pc + 1 ≠ (stepList s.cfg op).length ∧ (s.perform op pc a).run = .busy op (pc + 1) ∧
      (s.perform op pc a).resp = s.resp ∧
      (s.perform op pc a).sess = sessAfter s.cfg op (pc + 1) s.sess ∧
      ∀ l, a = .dcSet l → (s.perform op pc a).dcOut = some l) ∨
    ((s.perform op pc a).run = .busy op pc ∧ (s.perform op pc a).resp = s.resp ∧
      (s.perform op pc a).sess = s.sess ∧ (s.perform op pc a).dcOut = s.dcOut) := by
  obtain ⟨u, e, ⟨-, -, hsess, -, hresp, -, hcfg, -, -⟩, -, h⟩ := perform_cases s op pc a
  obtain ⟨ht, hdc, -⟩ | ⟨k, i, ht, -⟩ | ⟨w, -, ht, hdc, -⟩ := h
  · by_cases hl : pc + 1 = (stepList s.cfg op).length
    · left
      simp [ht, u.advance_last op pc (hcfg ▸ hl), sessAfter, hcfg, hl]
    · right; left
      refine ⟨hl, ?_, ?_, by simp [ht, hsess, hcfg], fun l ha => by subst ha; simp [ht, hdc]⟩
      · simp [ht, u.advance_inner op pc (hcfg ▸ hl)]
      · simp [ht, u.advance_inner op pc (hcfg ▸ hl), hresp]
  · simp [ht]
  · simp [ht, hresp, hsess, hdc]

/-! ### An atomic host operation -/

section
variable {s t : State} {op : HostOp} {pc : Nat} (hr : s.run = .busy op pc)
  (hp : isPanelOp op = false) (h : exec (s.latched op) s = .next t)
include hr hp h

/-- An atomic operation ends in its one step, does no I/O, and leaves the session as it was unless it is
NEW (46_driver rules R221, R224). -/
theorem exec_atomic_frame : t.run = .idle ∧ t.cfg = s.cfg ∧ t.trace = s.trace ∧
    (t.sess = s.sess ∨ t.sess = .unknown) := by
  rcases exec_atomic_cases hr hp h with ⟨c, v, rfl⟩ | rfl | rfl | rfl | ⟨x, y, c, -, -, rfl⟩ |
    ⟨w, -, rfl⟩ | ⟨raw, c, -, rfl⟩ <;> simp

/-- What an atomic operation does to the framebuffer: nothing, or it clears it, or it writes one pixel in
bounds with a palette code. -/
theorem exec_atomic_fb : t.fb = s.fb ∨ t.fb = [] ∨
    ∃ x y c, inBounds x y = true ∧ c.toNat ≤ 6 ∧ t.fb = (s.putPixel x y c).fb := by
  rcases exec_atomic_cases hr hp h with ⟨c, v, rfl⟩ | rfl | rfl | rfl | ⟨x, y, c, hb, hc, rfl⟩ |
    ⟨w, -, rfl⟩ | ⟨raw, c, -, rfl⟩
  case inr.inr.inr.inr.inl => exact .inr (.inr ⟨x, y, c, hb, hc, rfl⟩)
  all_goals simp

/-- What an atomic operation does to the error buffer: nothing, or it empties it, or it diffuses one
pixel. -/
theorem exec_atomic_err : t.dither.err = s.dither.err ∨ t.dither.err = [] ∨
    ∃ raw, t.dither.err = (ditherAdvance s.cfg.palette s.dither raw).err := by
  rcases exec_atomic_cases hr hp h with ⟨c, v, rfl⟩ | rfl | rfl | rfl | ⟨x, y, c, -, -, rfl⟩ |
    ⟨w, -, rfl⟩ | ⟨raw, c, -, rfl⟩
  case inr.inr.inr.inr.inr.inr => exact .inr (.inr ⟨raw, rfl⟩)
  all_goals simp [Dither.reset]

end

/-! ### A step of the machine -/

section
variable {s t : State} (h : step s = .next t)
include h

/-- No step writes the configuration (10_state rule R33). -/
theorem step_cfg : t.cfg = s.cfg := by
  rcases step_next_cases h with ⟨-, rfl⟩ | ⟨-, -, -, rfl⟩ | ⟨w, rest, op, -, -, -, -, -, rfl⟩ |
    ⟨op, pc, a, -, -, -, -, rfl⟩ | ⟨op, pc, -, hr, hp, he⟩
  case inr.inr.inr.inr => exact (exec_atomic_frame hr hp he).2.1
  all_goals simp

/-- A step adds at most one event to the trace (00_scope rule R15). -/
theorem step_trace : ∃ es, t.trace = s.trace ++ es ∧ es.length ≤ 1 := by
  rcases step_next_cases h with ⟨-, rfl⟩ | ⟨-, -, -, rfl⟩ | ⟨w, rest, op, -, -, -, -, -, rfl⟩ |
    ⟨op, pc, a, -, -, -, -, rfl⟩ | ⟨op, pc, -, hr, hp, he⟩
  · exact ⟨[], by simp⟩
  · exact ⟨[], by simp⟩
  · exact ⟨[], by simp⟩
  · obtain ⟨e, htr⟩ := perform_trace s op pc a
    exact ⟨[e], htr, le_refl 1⟩
  · obtain ⟨-, -, htr, -⟩ := exec_atomic_frame hr hp he
    exact ⟨[], by simp [htr]⟩

/-- What a step does to the framebuffer. -/
theorem step_fb : t.fb = s.fb ∨ t.fb = [] ∨
    ∃ x y c, inBounds x y = true ∧ c.toNat ≤ 6 ∧ t.fb = (s.putPixel x y c).fb := by
  rcases step_next_cases h with ⟨-, rfl⟩ | ⟨-, -, -, rfl⟩ | ⟨w, rest, op, -, -, -, -, -, rfl⟩ |
    ⟨op, pc, a, -, -, -, -, rfl⟩ | ⟨op, pc, -, hr, hp, he⟩
  case inr.inr.inr.inr => exact exec_atomic_fb hr hp he
  all_goals simp

/-- What a step does to the error buffer. -/
theorem step_err : t.dither.err = s.dither.err ∨ t.dither.err = [] ∨
    ∃ raw, t.dither.err = (ditherAdvance s.cfg.palette s.dither raw).err := by
  rcases step_next_cases h with ⟨-, rfl⟩ | ⟨-, -, -, rfl⟩ | ⟨w, rest, op, -, -, -, -, -, rfl⟩ |
    ⟨op, pc, a, -, -, -, -, rfl⟩ | ⟨op, pc, -, hr, hp, he⟩
  case inr.inr.inr.inr => exact exec_atomic_err hr hp he
  all_goals simp [Dither.reset]

end

end Sys2Proof.Machine
end

section
/-! PROOF. Every step keeps both memories in canonical form and every nibble of the framebuffer a palette
code (O28, O29). -/

namespace Sys2Proof.Proofs

open Sys2Proof Sys2Proof.Machine

/-- Replacing one nibble of a legal byte by a palette code gives a legal byte. -/
theorem legalByte_setNibble (o : NibbleOrder) (x : Coord) {c : Code} {b : Byte}
    (hb : legalByte b = true) (hc : c.toNat ≤ 6) : legalByte (setNibble o x c b) = true := by
  simp only [legalByte, Bool.and_eq_true, decide_eq_true_eq] at hb ⊢
  obtain ⟨hhi, hlo⟩ := hb
  unfold setNibble
  split
  · simp [hc, hlo]
  · simp [hc, hhi]

/-- Writing a palette code into one pixel keeps the framebuffer legal. -/
theorem fbLegal_putPixel {s : State} (x y : Coord) {c : Code} (hl : FbLegal s)
    (hw : Memory.wf s.fb = true) (hc : c.toNat ≤ 6) : FbLegal (s.putPixel x y c) := by
  intro a
  rw [State.putPixel_fb]
  by_cases ha : a = pixelAddr x y
  · rw [ha, readByte_writeByte_same _ _ hw]
    exact legalByte_setNibble _ _ (hl _) hc
  · rw [readByte_writeByte_other _ _ ha]
    exact hl a

/-- Every step keeps the framebuffer in canonical form and inside its addresses (10_state rule R21). -/
theorem step_keeps_fb_wf {s t : State} (hw : Memory.wf s.fb = true) (h : step s = .next t) :
    Memory.wf t.fb = true := by
  obtain hfb | hfb | ⟨x, y, c, hb, -, hfb⟩ := step_fb h <;> rw [hfb]
  · exact hw
  · exact Memory.wf_nil
  · exact Memory.wf_writeByte _ hw (pixelAddr_lt hb)

/-- Every step keeps the error buffer in canonical form. -/
theorem step_keeps_err_wf {s t : State} (hw : sparseWf 0 s.dither.err = true)
    (h : step s = .next t) : sparseWf 0 t.dither.err = true := by
  obtain he | he | ⟨raw, he⟩ := step_err h <;> rw [he]
  · exact hw
  · exact sparseWf_nil
  · rw [ditherAdvance_err]
    exact sparseWf_diffuse _ _ _ _ (sparseWf_consumeErr _ _ hw)

/-- Every step keeps the framebuffer legal, given its canonical form (70_reset_and_hazards rule R281). -/
theorem step_keeps_fbLegal {s t : State} (hl : FbLegal s) (hw : Memory.wf s.fb = true)
    (h : step s = .next t) : FbLegal t := by
  obtain hfb | hfb | ⟨x, y, c, -, hc, hfb⟩ := step_fb h <;> intro a <;> rw [hfb]
  · exact hl a
  · rw [readByte_nil]; decide
  · exact fbLegal_putPixel x y hl hw hc a

/-- Settles O29: what a step can do to either memory is a write, or emptying it. -/
theorem memoriesStayCanonical : Obligations.MemoriesStayCanonical :=
  fun _ _ ⟨hfb, herr⟩ h => ⟨step_keeps_fb_wf hfb h, step_keeps_err_wf herr h⟩

/-- Settles O28: the only byte a step writes has one nibble replaced by a palette code. -/
theorem framebufferStaysLegal : Obligations.FramebufferStaysLegal :=
  fun s t ⟨hl, hw⟩ h => ⟨step_keeps_fbLegal hl hw.1 h, memoriesStayCanonical s t hw h⟩

end Sys2Proof.Proofs
end

section
/-! PROOF. Every step keeps the laws of the sequencer, of the select line and of the response, and what no
step changes (O59, O60, O35, O40). -/

namespace Sys2Proof.Proofs

open Sys2Proof Sys2Proof.Machine

/-! ### The invariants by the kind of position -/

variable {s t : State} {op : HostOp} {pc : Nat}

theorem sequencerInv_idle_iff (hr : s.run = .idle) : SequencerInv s ↔ s.sess ≠ .awake := by
  simp [SequencerInv, hr]

theorem sequencerInv_panel_iff (hr : s.run = .busy op pc) (hp : isPanelOp op = true) :
    SequencerInv s ↔ pc < (stepList s.cfg op).length ∧
      (s.sess = .awake ↔ (wakeupList s.cfg).length ≤ pc) := by
  simp [SequencerInv, hr, hp]

theorem sequencerInv_atomic_iff (hr : s.run = .busy op pc) (hp : isPanelOp op = false) :
    SequencerInv s ↔ pc = 0 ∧ s.sess ≠ .awake := by
  simp [SequencerInv, hr, hp]

theorem selectLineInv_of_idle (hr : s.run = .idle) : SelectLineInv s := by
  simp [SelectLineInv, hr]

theorem selectLineInv_busy_iff (hr : s.run = .busy op pc) : SelectLineInv s ↔ ∀ c,
    ((stepList s.cfg op)[pc]? = some (.command c 1) → s.dcOut = some .low) ∧
    ((stepList s.cfg op)[pc]? = some (.command c 3) → s.dcOut = some .high) := by
  constructor
  · exact fun h c => h op pc c hr
  · rintro h op' pc' c hr'
    obtain ⟨rfl, rfl⟩ : op = op' ∧ pc = pc' := by simpa [hr] using hr'
    exact h c

/-! ### The sequencer -/

/-- Before the end of the list, `sess` changes only at the end of the wakeup (44_protocol_sequences rule
R180). -/
theorem sessAfter_inner (c : Config) (old : Session) (hl : pc ≠ (stepList c op).length) :
    sessAfter c op pc old = if pc = (wakeupList c).length then .awake else old := by
  simp [sessAfter, hl]

/-- Acceptance starts an operation at position 0, before the end of any wakeup. -/
theorem sequencerInv_load (w : Hcw) (h : s.sess ≠ .awake) : SequencerInv (s.load op w) := by
  cases hp : isPanelOp op with
  | true =>
    obtain ⟨h0, hlt⟩ := wakeup_inside s.cfg hp
    rw [sequencerInv_panel_iff rfl hp]
    simp only [State.load_cfg, State.load_sess, h, false_iff]
    omega
  | false => exact (sequencerInv_atomic_iff rfl hp).mpr ⟨rfl, h⟩

/-- A step of a step list keeps the sequencer's law. -/
theorem sequencerInv_perform (a : Action) (hr : s.run = .busy op pc) (hp : isPanelOp op = true)
    (hi : SequencerInv s) : SequencerInv (s.perform op pc a) := by
  obtain ⟨hlt, haw⟩ := (sequencerInv_panel_iff hr hp).mp hi
  obtain ⟨hrun, hsess⟩ | ⟨hl, hrun, -, hsess, -⟩ | ⟨hrun, -, hsess, -⟩ :=
    perform_run_cases s op pc a
  · exact (sequencerInv_idle_iff hrun).mpr hsess
  · rw [sequencerInv_panel_iff hrun hp, hsess, sessAfter_inner _ _ hl, State.perform_cfg]
    refine ⟨by omega, ?_⟩
    split_ifs with hw
    · simp [hw]
    · rw [haw]; omega
  · rw [sequencerInv_panel_iff hrun hp, hsess, State.perform_cfg]
    exact ⟨hlt, haw⟩

/-- Settles O59: acceptance starts at position 0 with the session not `Awake`, each step of a list moves
on by one at most, and whatever ends an operation leaves the session not `Awake`. -/
theorem sequencerStaysInItsList : Obligations.SequencerStaysInItsList := by
  intro s t hi h
  rcases step_next_cases h with ⟨-, rfl⟩ | ⟨-, -, -, rfl⟩ | ⟨w, rest, op, -, hr, -, -, -, rfl⟩ |
    ⟨op, pc, a, -, hr, hp, -, rfl⟩ | ⟨op, pc, -, hr, hp, he⟩
  · exact (sequencerInv_idle_iff rfl).mpr (by simp)
  · exact hi
  · exact sequencerInv_load w ((sequencerInv_idle_iff hr).mp hi)
  · exact sequencerInv_perform a hr hp hi
  · obtain ⟨-, hsess⟩ := (sequencerInv_atomic_iff hr hp).mp hi
    obtain ⟨hrun, -, -, hs | hs⟩ := exec_atomic_frame hr hp he
    · exact (sequencerInv_idle_iff hrun).mpr (hs ▸ hsess)
    · exact (sequencerInv_idle_iff hrun).mpr (by simp [hs])

/-! ### The select line -/

/-- The action before a command's opcode byte drives the line low, and the one before its data drives it
high (43_protocol_primitives rules R167, R168). -/
theorem action_before_write {a : Action} {p : PanelCmd}
    (ha : ((stepList s.cfg op)[pc]?).bind (entryAction s.cfg) = some a) :
    ((stepList s.cfg op)[pc + 1]? = some (.command p 1) → a = .dcSet .low) ∧
    ((stepList s.cfg op)[pc + 1]? = some (.command p 3) → a = .dcSet .high) := by
  constructor <;> intro he <;> rw [command_step_before he] at ha
  · exact (Option.some.inj ((commandActions_zero s.cfg p).symm.trans ha)).symm
  · exact commandActions_two ha

/-- A step of a step list keeps the select line's law. -/
theorem selectLineInv_perform {a : Action} (hr : s.run = .busy op pc)
    (ha : ((stepList s.cfg op)[pc]?).bind (entryAction s.cfg) = some a)
    (hi : SelectLineInv s) : SelectLineInv (s.perform op pc a) := by
  obtain ⟨hrun, -⟩ | ⟨-, hrun, -, -, hdc⟩ | ⟨hrun, -, -, hdc⟩ := perform_run_cases s op pc a
  · exact selectLineInv_of_idle hrun
  · rw [selectLineInv_busy_iff hrun, State.perform_cfg]
    exact fun p => ⟨fun he => hdc _ ((action_before_write ha).1 he),
      fun he => hdc _ ((action_before_write ha).2 he)⟩
  · rw [selectLineInv_busy_iff hrun, State.perform_cfg, hdc]
    exact (selectLineInv_busy_iff hr).mp hi

/-- Settles O60: no list begins with a command's step, and the step before each write is the `DcSet` that
drives the line. -/
theorem selectLineIsDrivenBeforeWrites : Obligations.SelectLineIsDrivenBeforeWrites := by
  intro s t hi h
  rcases step_next_cases h with ⟨-, rfl⟩ | ⟨-, -, -, rfl⟩ | ⟨w, rest, op, -, -, -, -, -, rfl⟩ |
    ⟨op, pc, a, -, hr, -, ha, rfl⟩ | ⟨op, pc, -, hr, hp, he⟩
  · exact selectLineInv_of_idle rfl
  · exact hi
  · exact (selectLineInv_busy_iff rfl).mpr fun p =>
      ⟨fun he => absurd he first_entry_not_command, fun he => absurd he first_entry_not_command⟩
  · exact selectLineInv_perform hr ha hi
  · exact selectLineInv_of_idle (exec_atomic_frame hr hp he).1

/-! ### The response, the configuration and the trace -/

/-- Settles O35: acceptance ends the response's validity, and while an operation is in progress no step
writes the response without ending the operation. -/
theorem responseIsValidOnlyBetweenOperations :
    Obligations.ResponseIsValidOnlyBetweenOperations := by
  intro s t hi h hv
  rcases step_next_cases h with ⟨-, rfl⟩ | ⟨-, -, -, rfl⟩ | ⟨w, rest, op, -, -, -, -, -, rfl⟩ |
    ⟨op, pc, a, -, hr, -, -, rfl⟩ | ⟨op, pc, -, hr, hp, he⟩
  · rfl
  · exact hi hv
  · simp at hv
  · have hne : (s.perform op pc a).resp ≠ s.resp := fun hresp => by
      have hidle : s.run = .idle := hi (hresp ▸ hv)
      simp [hr] at hidle
    obtain ⟨hrun, -⟩ | ⟨-, -, hresp, -⟩ | ⟨-, hresp, -⟩ := perform_run_cases s op pc a
    · exact hrun
    · exact absurd hresp hne
    · exact absurd hresp hne
  · exact (exec_atomic_frame hr hp he).1

/-- Settles O40, from what a step does to the configuration and to the trace. -/
theorem configurationIsFixedAndTraceGrows : Obligations.ConfigurationIsFixedAndTraceGrows :=
  fun _ _ h => ⟨step_cfg h, step_trace h⟩

end Sys2Proof.Proofs
end

section
/-! PROOF. Acceptance of a word, the step of a panel command in progress, and the reset state (O6, O54,
O33, O34). -/

namespace Sys2Proof.Proofs

open Sys2Proof Sys2Proof.Machine

/-- A word that decodes names an operation, and the instruction is that operation's with the word's
fields (30_encoding rule R81). -/
theorem decodeHost_eq_ok_iff {w : Hcw} {i : Instr} : decodeHost w = .ok i ↔
    ∃ op, HostOp.ofCode w.opField = some op ∧
      i = op.instr w.xField w.yField w.colorField w.rgbField w.xField := by
  unfold decodeHost
  cases HostOp.ofCode w.opField <;> simp [eq_comm]

/-- The instruction of an operation is that operation. -/
@[simp] theorem hostOpOf_instr (op : HostOp) (x y : Coord) (color : Code) (rgb : Rgb24)
    (w : Coord) : hostOpOf (op.instr x y color rgb w) = some op := by
  cases op <;> rfl

/-- A well-formed instruction, with an engine to feed if it is DITHER_NEXT, is not refused (30_encoding
rule R91, 41_dither rules R121, R122). -/
theorem refusalOf_eq_none {i : Instr} {s : State} (hwf : i.wellFormed = true)
    (hd : ∀ rgb, i = .ditherNext rgb → s.dither.valid = true) : refusalOf i s = none := by
  cases i with
  | setPixel x y color | toRgb color =>
    have hc : color.toNat ≤ 6 := of_decide_eq_true hwf
    simp [refusalOf, hc]
  | ditherNew w =>
    have hw : 1 ≤ w.toNat ∧ w.toNat ≤ 600 := of_decide_eq_true hwf
    have hn : ¬(w.toNat = 0 ∨ w.toNat > ditherWidthMax) := by unfold ditherWidthMax; omega
    exact if_neg hn
  | ditherNext rgb => simp [refusalOf, hd rgb rfl]
  | _ => rfl

/-- At an idle port a word that names an operation and is not refused is accepted. -/
theorem step_accepts {s : State} {w : Hcw} {rest : List Hcw} {op : HostOp}
    (h0 : s.hwReset = false) (hr : s.run = .idle) (hh : s.host = w :: rest)
    (ho : HostOp.ofCode w.opField = some op)
    (hf : refusalOf (op.instr w.xField w.yField w.colorField w.rgbField w.xField) s = none) :
    step s = .next ({ s with host := rest }.load op w) := by
  simp [step, h0, hr, acceptNext, hh, ho, hf]

/-- The step after acceptance is the meaning of the latched instruction (46_driver rule R221). -/
theorem step_at_start {s : State} {op : HostOp} (h0 : s.hwReset = false)
    (hr : s.run = .busy op 0) : step s = exec (s.latched op) s := by
  cases hp : isPanelOp op with
  | true => rw [step_panel h0 hr hp, exec_latched_panel hp]
  | false => exact step_atomic h0 hr hp

/-- Settles O6: the accepted state is `load`'s, whose latches hold the decoded operands. -/
theorem portAcceptsAWord : Obligations.PortAcceptsAWord := by
  intro s w rest i h0 hr hh hdec hwf hd
  obtain ⟨op, ho, rfl⟩ := decodeHost_eq_ok_iff.mp hdec
  refine ⟨{ s with host := rest }.load op w, op,
    step_accepts h0 hr hh ho (refusalOf_eq_none hwf hd), rfl, hostOpOf_instr _ _ _ _ _ _,
    rfl, rfl, rfl, rfl, rfl, rfl, rfl, rfl, rfl, rfl, rfl, rfl, rfl, rfl, rfl, rfl, rfl, ?_⟩
  exact step_at_start h0 rfl

/-- Settles O54: the three readings all come to the panel operation's step at its position. -/
theorem commandStepIsTheOperationsStep : Obligations.CommandStepIsTheOperationsStep := by
  intro s op pc c k h0 hr he
  have hp := isPanelOp_of_entry he
  have hc : exec c.instr s = panelStep op s := by
    rw [exec_command, commandStep_eq_panelStep hr he]
  exact ⟨hc.trans (exec_latched_panel hp).symm, (step_panel h0 hr hp).trans hc.symm⟩

/-- Settles O33: the framebuffer lists no byte, so each is `blankByte`; the rest are the fields as
`State.resetWith` writes them. -/
theorem resetStateHasTheSpecsValues : Obligations.ResetStateHasTheSpecsValues :=
  ⟨fun a => readByte_nil a, rfl, rfl, rfl, rfl, rfl, rfl, rfl⟩

/-- Settles O34: after reset both memories are empty, there is no engine, and the port is idle with the
session `Unknown`. -/
theorem invariantsHoldAtReset : Obligations.InvariantsHoldAtReset := by
  intro c
  refine ⟨⟨Memory.wf_nil, sparseWf_nil⟩, fun a => ?_, fun hv => ?_, ?_,
    selectLineInv_of_idle rfl, fun _ => rfl⟩
  · show legalByte (readByte [] a) = true
    rw [readByte_nil]; decide
  · cases hv
  · exact (sequencerInv_idle_iff rfl).mpr Session.noConfusion

end Sys2Proof.Proofs
end

section
/-! PROOF. The map from pixels to bytes and nibbles, and the byte view of the framebuffer (O27, O30). -/

namespace Sys2Proof.Proofs

open Sys2Proof Sys2Proof.Machine

/-! ### The bytes and nibbles of the pixels (20_memory rules R51, R53) -/

/-- The address formula with its numeral. -/
theorem pixelAddr_eq (x y : Coord) : pixelAddr x y = x.toNat / 2 + y.toNat * 300 := rfl

/-- Addresses grow with both coordinates. -/
theorem pixelAddr_mono {x y x' y' : Coord} (hx : x.toNat ≤ x'.toNat) (hy : y.toNat ≤ y'.toNat) :
    pixelAddr x y ≤ pixelAddr x' y' :=
  Nat.add_le_add (Nat.div_le_div_right hx) (Nat.mul_le_mul_right 300 hy)

/-- Two columns of a row share a byte exactly when they are the same pair of columns. -/
theorem pixelAddr_eq_iff {x y x' y' : Coord} (hx : x.toNat < 600) (hx' : x'.toNat < 600) :
    pixelAddr x y = pixelAddr x' y' ↔ y = y' ∧ x.toNat / 2 = x'.toNat / 2 := by
  rw [pixelAddr_eq, pixelAddr_eq, ← BitVec.toNat_inj]
  omega

/-- Under either order, columns have the same nibble exactly when they have the same parity. -/
theorem inHighNibble_eq_iff (o : NibbleOrder) (x x' : Coord) :
    inHighNibble o x = inHighNibble o x' ↔ x.toNat % 2 = x'.toNat % 2 := by
  rw [Bool.eq_iff_iff, inHighNibble_iff, inHighNibble_iff]
  by_cases ho : o = .evenHigh
  · simp only [ho, iff_true]; omega
  · simp only [ho, iff_false]; omega

/-- The column after an even one has the other nibble of the same byte. -/
theorem even_column_next {x : Coord} (hx : x.toNat < 599) (he : x.toNat % 2 = 0) (y : Coord) :
    pixelAddr (x + 1) y = pixelAddr x y ∧ inHighNibble .evenHigh x = true ∧
      inHighNibble .evenHigh (x + 1) = false := by
  have hnext : (x + 1).toNat = x.toNat + 1 := by bv_omega
  rw [pixelAddr_eq, pixelAddr_eq, ← Bool.not_eq_true, inHighNibble_iff, inHighNibble_iff, hnext]
  simp only [iff_true]
  omega

/-- Every framebuffer byte is that of the even pixel at column `2 * (a % 300)` of row `a / 300`. -/
theorem exists_even_pixel {a : Nat} (ha : a < 134400) : ∃ x y : Coord, x.toNat < 599 ∧
    y.toNat < 448 ∧ x.toNat = 2 * (a % 300) ∧ y.toNat = a / 300 ∧ pixelAddr x y = a := by
  refine ⟨.ofNatLT (2 * (a % 300)) (by omega), .ofNatLT (a / 300) (by omega), ?_⟩
  rw [pixelAddr_eq, BitVec.toNat_ofNatLT, BitVec.toNat_ofNatLT]
  omega

/-- Settles O27: an address is a quotient and a remainder by 300, and the nibble is the parity of the
column, so that byte and nibble give back row, half column and parity. -/
theorem pixelMapIsABijection : Obligations.PixelMapIsABijection := by
  refine ⟨fun x y hx hy => ⟨pixelAddr_eq x y, ?_, pixelAddr_lt ((inBounds_iff x y).mpr ⟨hx, hy⟩)⟩,
    fun a ha => ?_, fun x y x' y' hx _ hx' _ => pixelAddr_eq_iff hx hx', ?_⟩
  · exact pixelAddr_mono (Nat.le_of_lt_succ hx) (Nat.le_of_lt_succ hy)
  · obtain ⟨x, y, hx, hy, hxa, hya, haddr⟩ := exists_even_pixel ha
    obtain ⟨hnext, hhigh, hlow⟩ := even_column_next hx (by omega) y
    exact ⟨x, y, hx, hy, hxa, hya, haddr, hnext.trans haddr, hhigh, hlow⟩
  · intro o x y x' y' hx _ hx' _ haddr hnib
    obtain ⟨hrow, hhalf⟩ := (pixelAddr_eq_iff hx hx').mp haddr
    have hparity := (inHighNibble_eq_iff o x x').mp hnib
    exact ⟨BitVec.eq_of_toNat_eq (by omega), hrow⟩

/-! ### The byte view of the framebuffer (20_memory rules R56, R57) -/

/-- Entry `a` of the byte view is framebuffer byte `a`. -/
theorem imageBytes_getElem? (m : List Host.Cell) {a : Nat} (ha : a < fbBytes) :
    (imageBytes m)[a]? = some (readByte m a) := by
  simp [imageBytes, ha]

/-- Each byte of the view is the framebuffer byte of some address. -/
theorem exists_readByte_of_mem_imageBytes {m : List Host.Cell} {b : Byte}
    (hb : b ∈ imageBytes m) : ∃ a, readByte m a = b := by
  obtain ⟨a, -, hread⟩ := List.mem_map.mp hb
  exact ⟨a, hread⟩

/-- A palette code is below 8, so its bit 3 is clear. -/
theorem code_bit3_of_le {c : Code} (hc : c.toNat ≤ 6) : c.getLsbD 3 = false :=
  Nat.testBit_lt_two_pow (Nat.lt_of_le_of_lt hc (by decide))

/-- A legal byte has the top bit of both nibbles clear (rule R57). -/
theorem legalByte_bits {b : Byte} (hb : legalByte b = true) :
    b.getLsbD 7 = false ∧ b.getLsbD 3 = false := by
  simp only [legalByte, Bool.and_eq_true, decide_eq_true_eq] at hb
  obtain ⟨hhi, hlo⟩ := hb
  have h7 := code_bit3_of_le hhi
  have h3 := code_bit3_of_le hlo
  exact ⟨by simpa [hi4] using h7, by simpa [lo4] using h3⟩

/-- Settles O30: the byte view reads the addresses in order, and each of its bytes is a legal one. -/
theorem imageIsTheFramebufferInOrder : Obligations.ImageIsTheFramebufferInOrder := by
  refine fun s => ⟨imageBytes_length s.fb, fun a ha => imageBytes_getElem? s.fb ha, ?_⟩
  intro hl b hb
  obtain ⟨a, rfl⟩ := exists_readByte_of_mem_imageBytes hb
  exact legalByte_bits (hl a)

end Sys2Proof.Proofs
end

section
/-! PROOF. Decoding of encoded instructions, command words and opcode bytes; what is refused as
undefined; and the fields of the response word (O1, O2, O3, O5, O53, O4, O36). -/

namespace Sys2Proof.Proofs

open Sys2Proof Sys2Proof.Machine

/-! ### Host command words (30_encoding rules R81, R82) -/

/-- A word with an operation's `op` value decodes to that operation with the word's fields. -/
theorem decodeHost_of_opField {w : Hcw} (op : HostOp) (h : w.opField = op.code) :
    decodeHost w = .ok (op.instr w.xField w.yField w.colorField w.rgbField w.xField) :=
  decodeHost_eq_ok_iff.mpr ⟨op, h ▸ HostOp.ofCode_code op, rfl⟩

/-- An assembled word decodes to its operation with the fields it was assembled from. -/
theorem decodeHost_assemble (op : HostOp) (x y : Coord) (color : Code) (rgb : Rgb24) :
    decodeHost (Hcw.assemble op.code x y color rgb) = .ok (op.instr x y color rgb x) := by
  rw [decodeHost_of_opField op (Hcw.opField_assemble ..), Hcw.xField_assemble,
    Hcw.yField_assemble, Hcw.colorField_assemble, Hcw.rgbField_assemble]

/-- Settles O1: a host operation is encoded as an assembled word and a panel command as its opcode
byte, and the decoder inverts both. -/
theorem encodedInstrDecodesToItself : Obligations.EncodedInstrDecodesToItself := by
  intro i
  cases i with
  | new | setPixel | setPixelRgb | getPixel | clear | init | display | nearest | toRgb |
    ditherNew | ditherNext => simp only [encode, decode, decodeHost_assemble, HostOp.instr]
  | panelSet | powerSet | powerOffSeqSet | powerOff | boosterSoftstart | deepSleep | dataStart |
    displayRefresh | tempSensorEn | vcomDataInterval | vendor60 | resolutionSet |
    vendorTuningE3 => simp only [encode, decode, decodeWire_opcode, PanelCmd.instr]

/-- Settles O2: the word has the `op` value of one operation, which takes from the other fields only
those it names. -/
theorem fieldsReachTheirOperands : Obligations.FieldsReachTheirOperands := by
  rintro w x y color rgb rfl rfl rfl rfl
  exact ⟨decodeHost_of_opField .new, decodeHost_of_opField .setPixel,
    decodeHost_of_opField .setPixelRgb, decodeHost_of_opField .getPixel,
    decodeHost_of_opField .clear, decodeHost_of_opField .init, decodeHost_of_opField .display,
    decodeHost_of_opField .nearest, decodeHost_of_opField .toRgb,
    decodeHost_of_opField .ditherNew, decodeHost_of_opField .ditherNext⟩

/-- Settles O4: each word is the one assembled from the fields its vector gives. -/
theorem sampleWordsDecode : Obligations.SampleWordsDecode :=
  ⟨decodeHost_assemble .setPixel 599 447 6 0, decodeHost_assemble .setPixelRgb 3 0 0 0xFF4000,
    decodeHost_assemble .getPixel 5 5 0 0, decodeHost_assemble .toRgb 0 0 6 0,
    decodeHost_assemble .ditherNew 600 0 0 0, decodeHost_assemble .ditherNext 0 0 0 0x646464,
    decodeWire_opcode .displayRefresh⟩

/-! ### Opcode bytes (30_encoding rules R85, R90) -/

/-- The panel commands, in the order of their opcodes. -/
def panelCommands : List PanelCmd :=
  [.panelSet, .powerSet, .powerOffSeqSet, .powerOff, .boosterSoftstart, .deepSleep, .dataStart,
    .displayRefresh, .tempSensorEn, .vcomDataInterval, .vendor60, .resolutionSet, .vendorTuningE3]

theorem mem_panelCommands (c : PanelCmd) : c ∈ panelCommands := by cases c <;> decide

/-- A byte names a command only if it is that command's opcode. -/
theorem ofOpcode_eq_some_iff {b : Byte} {c : PanelCmd} :
    PanelCmd.ofOpcode b = some c ↔ c.opcode = b := by
  constructor
  · intro h
    unfold PanelCmd.ofOpcode at h
    split at h
    all_goals cases h
    all_goals next hb => exact BitVec.eq_of_toNat_eq hb.symm
  · rintro rfl
    exact PanelCmd.ofOpcode_opcode c

/-- A byte that decodes is a command's opcode, and the instruction is that command's. -/
theorem decodeWire_eq_ok_iff {b : Byte} {i : Instr} :
    decodeWire b = .ok i ↔ ∃ c : PanelCmd, c.opcode = b ∧ c.instr = i := by
  simp only [← ofOpcode_eq_some_iff]
  unfold decodeWire
  cases PanelCmd.ofOpcode b <;> simp

/-- Settles O3: the thirteen rows are the opcode and the instruction of each panel command. -/
theorem thirteenOpcodesDecode : Obligations.ThirteenOpcodesDecode := by
  intro b i
  change _ ↔ (b, i) ∈ panelCommands.map fun c => (c.opcode, c.instr)
  simp only [decodeWire_eq_ok_iff, List.mem_map, mem_panelCommands, true_and, Prod.mk.injEq]

/-! ### Undefined `op` values and illegal colours (30_encoding rule R91) -/

/-- The `op` values 0x7 and 0xC to 0xF name no operation. -/
theorem ofCode_eq_none {c : BitVec 4} (h : c = 0x7 ∨ 0xC ≤ c.toNat) :
    HostOp.ofCode c = none := by
  revert c; decide

/-- The codes 0x7 to 0xF are no colour's. -/
theorem colorOfCode_eq_none {c : Code} (h : 7 ≤ c.toNat) : colorOfCode c = none := by
  revert c; decide

/-- Whoever may run has a position. -/
theorem position_isSome_of_mayRun {op : HostOp} {s : State} (h : MayRun op s) :
    (s.position op).isSome = true := by
  obtain hr | ⟨pc, hr⟩ := h
  · rw [State.position_idle s hr]; rfl
  · rw [State.position_busy s hr]; rfl

/-- A SET_PIXEL that may run is refused on an illegal colour, in or out of bounds. -/
theorem exec_setPixel_illegal {s : State} (x y : Coord) {color : Code} (hm : MayRun .setPixel s)
    (hc : 7 ≤ color.toNat) : exec (.setPixel x y color) s = .refused (.illegalColor color) :=
  (whenReady_of_position s (position_isSome_of_mayRun hm)).trans (if_pos hc)

/-- A TO_RGB that may run is refused on an illegal colour. -/
theorem exec_toRgb_illegal {s : State} {color : Code} (hm : MayRun .toRgb s)
    (hc : 7 ≤ color.toNat) : exec (.toRgb color) s = .refused (.illegalColor color) := by
  refine (whenReady_of_position s (position_isSome_of_mayRun hm)).trans ?_
  rw [colorOfCode_eq_none hc]

section
variable {s : State} {w : Hcw} {rest : List Hcw} (h0 : s.hwReset = false) (hr : s.run = .idle)
  (hh : s.host = w :: rest)
include h0 hr hh

/-- At an idle port a word that names no operation is refused. -/
theorem step_refuses_undefinedOp (ho : HostOp.ofCode w.opField = none) :
    step s = .refused (.undefinedOp w.opField) := by
  simp [step, h0, hr, acceptNext, hh, ho]

/-- At an idle port a word whose instruction is refused gets that refusal. -/
theorem step_refuses {op : HostOp} {r : Refusal} (ho : w.opField = op.code)
    (hf : refusalOf (op.instr w.xField w.yField w.colorField w.rgbField w.xField) s = some r) :
    step s = .refused r := by
  simp [step, h0, hr, acceptNext, hh, ho, HostOp.ofCode_code, hf]

end

/-- Settles O5: such an `op` value names no operation, and such a colour is refused by acceptance and
by the two meanings alike. -/
theorem undefinedInputsAreRefused : Obligations.UndefinedInputsAreRefused := by
  refine ⟨fun s w rest h0 hr hh ho => step_refuses_undefinedOp h0 hr hh (ofCode_eq_none ho),
    fun s w rest h0 hr hh ho hc => ?_,
    fun x y color s => exec_setPixel_illegal x y, fun color s => exec_toRgb_illegal⟩
  obtain ho | ho := ho
  · exact step_refuses (op := .setPixel) h0 hr hh ho (if_pos hc)
  · exact step_refuses (op := .toRgb) h0 hr hh ho (if_pos hc)

/-! ### Panel commands out of place (30_encoding rule R92) -/

/-- A command has a position only where the step in progress is one of its own. -/
theorem run_of_commandPosition {s : State} {c : PanelCmd} {op : HostOp} {pc k : Nat}
    (h : s.commandPosition c = some (op, pc, k)) :
    s.run = .busy op pc ∧ (stepList s.cfg op)[pc]? = some (.command c k) := by
  unfold State.commandPosition at h
  split at h
  · cases h
  · split at h
    · split_ifs at h with hc
      cases h
      subst hc
      exact ⟨‹_›, ‹_›⟩
    · cases h
    · cases h

/-- Settles O53: a command whose step is not in progress has no position, and without one its meaning
is refused. -/
theorem commandOutOfPlaceIsRefused : Obligations.CommandOutOfPlaceIsRefused := by
  intro c s h
  have hpos : s.commandPosition c = none := by
    rw [Option.eq_none_iff_forall_ne_some]
    rintro ⟨op, pc, k⟩ hp
    obtain ⟨hr, he⟩ := run_of_commandPosition hp
    exact h op pc k hr he
  rw [exec_command, commandStep, hpos]

/-! ### The response word (30_encoding rules R83, R84) -/

/-- The bits of the response word, field by field. -/
theorem getLsbD_rsp (s : State) (i : Nat) : s.rsp.getLsbD i =
    if i < 24 then s.resp.rgb.getLsbD i
    else if i < 28 then s.resp.color.getLsbD (i - 24)
    else (statusCode s.resp.status).getLsbD (i - 28) := by
  have hcolor : i - 24 < 4 ↔ i < 28 := by omega
  simp only [State.rsp, BitVec.getLsbD_append, hcolor, Nat.sub_sub]

/-- Settles O36: a table of codes, the places of the three fields of `RSP`, and `SESS`. -/
theorem hostReadsStatusAndSession : Obligations.HostReadsStatusAndSession := by
  refine ⟨fun st => by cases st <;> decide, fun s => ⟨?_, ?_, ?_, ?_⟩⟩
  · exact extract_of_bits 28 fun i hi => by
      rw [getLsbD_rsp, if_neg (by omega), if_neg (by omega), Nat.add_sub_cancel_left]
  · exact extract_of_bits 24 fun i hi => by
      rw [getLsbD_rsp, if_neg (by omega), if_pos (by omega), Nat.add_sub_cancel_left]
  · exact extract_of_bits 0 fun i hi => by
      rw [getLsbD_rsp, if_pos (by omega), Nat.zero_add]
  · unfold State.sessField
    cases s.sess <;> decide

end Sys2Proof.Proofs
end

section
/-! PROOF. The palette quantizer: the nearest colour is the first least of the distances to the palette's
triples, and NEAREST and TO_RGB write the response alone (O11, O12, O13). -/

namespace Sys2Proof.Proofs

open Sys2Proof Sys2Proof.Machine

/-! ### The nearest colour is the first least (40_palette rule R112) -/

theorem mem_allColors (p : PaletteColor) : p ∈ allColors := by cases p <;> decide

/-- A colour's code is its place in the declaration order (40_palette rule R110). -/
theorem idxOf_allColors (p : PaletteColor) : allColors.idxOf p = (colorCode p).toNat := by
  cases p <;> decide

section
variable (P : Palette) (p : PaletteColor)

/-- The model's scan, which carries the best colour so far, is the library's `argmin` over the colours in
declaration order. -/
theorem nearestColor_mem_argmin (r g b : Int) :
    nearestColor P r g b ∈ allColors.argmin fun p => colorDist P p r g b :=
  List.foldl_hom some fun _ _ => (apply_ite some _ _ _).symm

/-- No colour is nearer than the nearest colour. -/
theorem colorDist_nearestColor_le (r g b : Int) :
    colorDist P (nearestColor P r g b) r g b ≤ colorDist P p r g b :=
  List.le_of_mem_argmin (mem_allColors p) (nearestColor_mem_argmin P r g b)

variable {P p}

/-- A colour as near as the nearest colour is not declared before it. -/
theorem colorCode_nearestColor_le {r g b : Int}
    (h : colorDist P p r g b ≤ colorDist P (nearestColor P r g b) r g b) :
    (colorCode (nearestColor P r g b)).toNat ≤ (colorCode p).toNat := by
  rw [← idxOf_allColors, ← idxOf_allColors]
  exact List.index_of_argmin (nearestColor_mem_argmin P r g b) (mem_allColors p) h

end

/-! ### The distance of a triple from the palette -/

/-- The model's distance of a packed colour is the squared Euclidean distance of rule R112. -/
theorem colorDist_unpackRgb (P : Palette) (rgb : Rgb24) (p : PaletteColor) :
    colorDist P p (rgbChannel (unpackRgb rgb) .red) (rgbChannel (unpackRgb rgb) .green)
      (rgbChannel (unpackRgb rgb) .blue) = distanceTo P rgb p := by
  simp only [colorDist, distanceTo, square, rgbChannel, unpackRgb, pow_two]

/-- Nearest among the colours of a packed operand: least distance, and strictly less than that of every
colour declared before. -/
theorem distanceTo_nearestOfRgb (P : Palette) (rgb : Rgb24) (p : PaletteColor) :
    distanceTo P rgb (nearestOfRgb P rgb) ≤ distanceTo P rgb p ∧
    ((colorCode p).toNat < (colorCode (nearestOfRgb P rgb)).toNat →
      distanceTo P rgb (nearestOfRgb P rgb) < distanceTo P rgb p) := by
  simp only [← colorDist_unpackRgb]
  refine ⟨colorDist_nearestColor_le P p _ _ _, fun hbefore => ?_⟩
  by_contra hnear
  exact absurd (colorCode_nearestColor_le (not_lt.mp hnear)) (not_le.mpr hbefore)

/-- Triples with the same channels are the same. -/
theorem rgb_eq_of_channels {c c' : Rgb} (h : ∀ ch, rgbChannel c ch = rgbChannel c' ch) : c = c' := by
  obtain ⟨r, g, b⟩ := c
  obtain ⟨r', g', b'⟩ := c'
  rw [Rgb.mk.injEq]
  exact ⟨BitVec.eq_of_toNat_eq (Int.ofNat.inj (h .red)),
    BitVec.eq_of_toNat_eq (Int.ofNat.inj (h .green)), BitVec.eq_of_toNat_eq (Int.ofNat.inj (h .blue))⟩

theorem colorDist_nonneg (P : Palette) (p : PaletteColor) (r g b : Int) : 0 ≤ colorDist P p r g b :=
  add_nonneg (add_nonneg (mul_self_nonneg _) (mul_self_nonneg _)) (mul_self_nonneg _)

/-- The colours at distance 0 from a triple are those with that triple. -/
theorem colorDist_eq_zero_iff (P : Palette) (p : PaletteColor) (c : Rgb) :
    colorDist P p (rgbChannel c .red) (rgbChannel c .green) (rgbChannel c .blue) = 0 ↔
      paletteRgb P p = c := by
  rw [colorDist, square, square, square,
    add_eq_zero_iff_of_nonneg (add_nonneg (mul_self_nonneg _) (mul_self_nonneg _))
      (mul_self_nonneg _),
    mul_self_add_mul_self_eq_zero, mul_self_eq_zero, sub_eq_zero, sub_eq_zero, sub_eq_zero]
  constructor
  · rintro ⟨⟨hr, hg⟩, hb⟩
    exact (rgb_eq_of_channels fun | .red => hr | .green => hg | .blue => hb).symm
  · rintro rfl
    exact ⟨⟨rfl, rfl⟩, rfl⟩

/-! ### NEAREST of a palette triple (40_palette rule R114) -/

theorem nearestOfRgb_packRgb (P : Palette) (c : Rgb) : nearestOfRgb P (packRgb c) =
    nearestColor P (rgbChannel c .red) (rgbChannel c .green) (rgbChannel c .blue) := by
  rw [nearestOfRgb, unpackRgb_packRgb]

/-- The colour nearest to a palette triple has that triple. -/
theorem paletteRgb_nearest_triple (P : Palette) (p : PaletteColor) :
    paletteRgb P (nearestOfRgb P (packRgb (paletteRgb P p))) = paletteRgb P p := by
  rw [nearestOfRgb_packRgb, ← colorDist_eq_zero_iff]
  have hself := (colorDist_eq_zero_iff P p _).mpr rfl
  exact ((colorDist_nearestColor_le P p _ _ _).trans_eq hself).antisymm (colorDist_nonneg ..)

/-- It is the first declared of the colours with that triple. -/
theorem colorCode_nearest_triple_le {P : Palette} {p p' : PaletteColor}
    (h : paletteRgb P p' = paletteRgb P p) :
    (colorCode (nearestOfRgb P (packRgb (paletteRgb P p)))).toNat ≤ (colorCode p').toNat := by
  rw [nearestOfRgb_packRgb]
  exact colorCode_nearestColor_le
    (((colorDist_eq_zero_iff P p' _).mpr h).trans_le (colorDist_nonneg ..))

/-- Pairwise distinct triples name their colours. -/
theorem paletteRgb_injective {P : Palette} (h : paletteDistinct P = true) :
    Function.Injective (paletteRgb P) := fun p q hpq =>
  List.inj_on_of_nodup_map (of_decide_eq_true h) (mem_allColors p) (mem_allColors q) hpq

/-- With pairwise distinct triples NEAREST inverts TO_RGB. -/
theorem nearest_triple {P : Palette} (h : paletteDistinct P = true) (p : PaletteColor) :
    nearestOfRgb P (packRgb (paletteRgb P p)) = p :=
  paletteRgb_injective h (paletteRgb_nearest_triple P p)

/-- Settles O12: the nearest colour to a triple is at distance 0, so it has that triple, and it is the
first colour that has. -/
theorem nearestOfAPaletteTripleIsItself : Obligations.NearestOfAPaletteTripleIsItself := fun P =>
  ⟨fun h => ⟨nearest_triple h, fun rgb => nearest_triple h (nearestOfRgb P rgb)⟩,
    fun p => ⟨paletteRgb_nearest_triple P p, fun _ => colorCode_nearest_triple_le⟩⟩

/-! ### NEAREST and TO_RGB (40_palette rules R112, R113) -/

/-- Ending an operation changes the response, `run` and the counter of free values alone. -/
theorem sameOutside_respond (s : State) (st : Status) (c : Option Code) (v : Option Rgb24)
    (i : Option Payload) : SameOutside s (s.respond st c v i) := by
  simp [SameOutside]

/-- A NEAREST that may run answers the nearest colour's code. -/
theorem exec_nearest {s : State} (rgb : Rgb24) (hm : MayRun .nearest s) : exec (.nearest rgb) s =
    .next (s.respond .ok (some (colorCode (nearestOfRgb s.cfg.palette rgb))) none none) :=
  whenReady_of_position s (position_isSome_of_mayRun hm)

/-- A TO_RGB of a colour's code that may run answers the colour's packed triple. -/
theorem exec_toRgb {s : State} (p : PaletteColor) (hm : MayRun .toRgb s) :
    exec (.toRgb (colorCode p)) s =
      .next (s.respond .ok none (some (packRgb (paletteRgb s.cfg.palette p))) none) := by
  refine (whenReady_of_position s (position_isSome_of_mayRun hm)).trans ?_
  rw [colorOfCode_colorCode]

/-- Settles O11: the answer is the nearest colour's code, and only the response is written. -/
theorem nearestAnswersTheNearestColor : Obligations.NearestAnswersTheNearestColor :=
  ⟨fun _ hop => decodeHost_of_opField .nearest hop, fun rgb s hm =>
    ⟨_, nearestOfRgb s.cfg.palette rgb, exec_nearest rgb hm, ⟨rfl, rfl, rfl⟩, rfl,
      distanceTo_nearestOfRgb s.cfg.palette rgb, rfl, rfl, sameOutside_respond s _ _ _ _⟩⟩

/-- Settles O13: the answer is the packed triple, whose fields are the triple's channels, and only the
response is written. -/
theorem toRgbAnswersTheTriple : Obligations.ToRgbAnswersTheTriple := by
  refine ⟨fun _ hop => decodeHost_of_opField .toRgb hop, fun color s => exec_toRgb_illegal,
    fun p s hm => ?_⟩
  have hfields := unpackRgb_packRgb (paletteRgb s.cfg.palette p)
  exact ⟨_, exec_toRgb p hm, ⟨rfl, rfl, rfl⟩, congrArg Rgb.r hfields, congrArg Rgb.g hfields,
    congrArg Rgb.b hfields, rfl, rfl, sameOutside_respond s _ _ _ _⟩

end Sys2Proof.Proofs
end

section
/-! PROOF. The dither engine: what a pixel does to every cell of the error buffer, how much a push can add,
and that no step takes a cell or the position out of its bounds (O14, O15, O16, O17, O18, O19, O20). -/

namespace Sys2Proof.Proofs

open Sys2Proof Sys2Proof.Machine

/-! ### The pushes of a residual (41_dither rules R124, R132) -/

/-- A push of the negated residual is the negated push. -/
theorem pushAmount_neg (wt e : Int) : pushAmount wt (-e) = -pushAmount wt e := by
  simp only [pushAmount, tdiv_eq, Int.mul_neg, Int.neg_tdiv]

/-- A residual that no channel exceeds is pushed in amounts no larger than those of 255. -/
theorem pushAmount_bounds {wt e : Int} (hwt : 0 ≤ wt) (he : -255 ≤ e ∧ e ≤ 255) :
    -pushAmount wt 255 ≤ pushAmount wt e ∧ pushAmount wt e ≤ pushAmount wt 255 := by
  rw [← pushAmount_neg]
  simp only [pushAmount, tdiv_eq, kernelDiv]
  exact ⟨Int.tdiv_le_tdiv (by decide) (Int.mul_le_mul_of_nonneg_left he.1 hwt),
    Int.tdiv_le_tdiv (by decide) (Int.mul_le_mul_of_nonneg_left he.2 hwt)⟩

/-- A residual that is not negative loses one remainder below 16 for each push, and the four remainders
add up to a multiple of 16. -/
theorem truncationLoss_of_nonneg {e : Int} (he : 0 ≤ e) :
    0 ≤ truncationLoss e ∧ truncationLoss e ≤ 3 := by
  simp only [truncationLoss, pushAmount, tdiv, kernelDiv]
  omega

theorem truncationLoss_neg (e : Int) : truncationLoss (-e) = -truncationLoss e := by
  simp only [truncationLoss, pushAmount_neg]
  ring

/-- Settles O20: the loss of a negative residual is that of its magnitude, negated. -/
theorem diffusionLosesAtMostThree : Obligations.DiffusionLosesAtMostThree := by
  refine fun e => ⟨truncationLoss_of_nonneg, fun he => ?_⟩
  have hloss := truncationLoss_of_nonneg (e := -e) (by omega)
  rw [truncationLoss_neg] at hloss
  omega

/-! ### The adjusted pixel (41_dither rule R122, steps 1, 3 and 4) -/

section
variable (P : Palette) (d : Dither) (rgb : Rgb24) (c : Channel)

theorem rgbChannel_unpackRgb : rgbChannel (unpackRgb rgb) c = rawChannel rgb c := by
  cases c <;> rfl

theorem rgbChannel_eq_tripleChannel (t : Rgb) : rgbChannel t c = tripleChannel t c := by
  cases c <;> rfl

/-- The model's clamp is the library's minimum and maximum. -/
theorem clamp_eq (v : Int) : clamp v 0 255 = max 0 (min 255 v) := by
  unfold clamp
  split_ifs <;> omega

theorem adjusted_eq_clampedChannel :
    adjusted d (unpackRgb rgb) c = clampedChannel d c (rawChannel rgb c) := by
  rw [adjusted, clamp_eq, rgbChannel_unpackRgb, clampedChannel]

theorem channelResidual_eq_residualOf :
    channelResidual P d (unpackRgb rgb) c = residualOf P d rgb c := by
  simp only [channelResidual, ditherColor, adjusted_eq_clampedChannel, rgbChannel_eq_tripleChannel,
    residualOf]

/-- Both terms of a residual are channels, so it is between -255 and 255. -/
theorem channelResidual_bounds (raw : Rgb) :
    -255 ≤ channelResidual P d raw c ∧ channelResidual P d raw c ≤ 255 := by
  have hchosen := rgbChannel_bounds (paletteRgb P (ditherColor P d raw)) c
  simp only [channelResidual, adjusted, clamp_eq]
  omega

end

/-! ### The cells after a pixel (41_dither rules R122 to R125) -/

/-- Step 5, one row at a time: to the right in the pixel's own row, to the three neighbours in the other,
and nowhere outside the row. -/
theorem readErr_diffuse {m : List (Nat × Int)} (p r : BitVec 1) (i w k : Nat) (e : Channel → Int)
    (c : Channel) (hm : sparseWf 0 m = true) :
    readErr (diffuse p i w e m) c r k =
      if w ≤ k then readErr m c r k
      else if r = p ∧ k = i + 1 then readErr m c r k + pushAmount 7 (e c)
      else if r ≠ p ∧ k + 1 = i then readErr m c r k + pushAmount 3 (e c)
      else if r ≠ p ∧ k = i then readErr m c r k + pushAmount 5 (e c)
      else if r ≠ p ∧ k = i + 1 then readErr m c r k + pushAmount 1 (e c)
      else readErr m c r k := by
  have h1 := sparseWf_pushTarget p i w e (1, false, 7) hm
  have h2 := sparseWf_pushTarget p i w e (-1, true, 3) h1
  have h3 := sparseWf_pushTarget p i w e (0, true, 5) h2
  simp only [diffuse, kernelTargets, List.foldl, readErr_pushTarget _ _ _ _ _ _ _ _ h3,
    readErr_pushTarget _ _ _ _ _ _ _ _ h2, readErr_pushTarget _ _ _ _ _ _ _ _ h1,
    readErr_pushTarget _ _ _ _ _ _ _ _ hm, targetRow, eq_flip_iff, if_true, Bool.false_eq_true,
    if_false]
  by_cases hr : r = p
  · simp only [hr, ne_eq, not_true, and_false, false_and, and_true, true_and, if_false]
    split_ifs <;> omega
  · simp only [hr, ne_eq, not_false_eq_true, and_false, false_and, and_true, true_and, if_false]
    split_ifs <;> omega

/-- What a pixel leaves in a cell is what rules R122 to R125 say, with the model's residual. -/
theorem readErr_ditherAdvance (P : Palette) {d : Dither} (raw : Rgb) (c : Channel) (r : BitVec 1)
    (k : Nat) (hm : sparseWf 0 d.err = true) :
    readErr (ditherAdvance P d raw).err c r k =
      diffusedCell d (channelResidual P d raw c) c r k := by
  rw [ditherAdvance_err, readErr_diffuse _ _ _ _ _ _ _ (sparseWf_consumeErr _ _ hm),
    readErr_consumeErr _ _ _ _ _ hm]
  simp only [pushAmount, tdiv_eq, kernelDiv, diffusedCell]
  by_cases hc : r = d.par ∧ k = d.col.toNat
  · obtain ⟨rfl, rfl⟩ := hc
    simp
  · simp only [hc, if_false]

/-! ### DITHER_NEW and DITHER_NEXT (41_dither rules R121, R122) -/

section
variable {s : State}

/-- Writing the dither state and ending the operation leaves everything outside alone. -/
theorem sameOutside_dither_respond (s : State) (d : Dither) (st : Status) (c : Option Code)
    (v : Option Rgb24) (i : Option Payload) :
    SameOutside s ({ s with dither := d }.respond st c v i) := by
  simp [SameOutside]

/-- A DITHER_NEW that may run starts an engine of a width in range, its error buffer empty. -/
theorem exec_ditherNew {w : Coord} (hm : MayRun .ditherNew s)
    (hw : ¬(w.toNat = 0 ∨ 600 < w.toNat)) : exec (.ditherNew w) s =
      .next ({ s with dither := { valid := true, w := w, col := 0, par := 0, err := [] } }.respond
        .ok none none none) :=
  (whenReady_of_position s (position_isSome_of_mayRun hm)).trans (if_neg hw)

/-- A DITHER_NEW that may run is refused on any other width. -/
theorem exec_ditherNew_badWidth {w : Coord} (hm : MayRun .ditherNew s)
    (hw : w.toNat = 0 ∨ 600 < w.toNat) : exec (.ditherNew w) s = .refused (.badRowWidth w) :=
  (whenReady_of_position s (position_isSome_of_mayRun hm)).trans (if_pos hw)

/-- A DITHER_NEXT that may run with an engine answers the colour chosen and advances the engine. -/
theorem exec_ditherNext (rgb : Rgb24) (hm : MayRun .ditherNext s) (hv : s.dither.valid = true) :
    exec (.ditherNext rgb) s =
      .next ({ s with dither := ditherAdvance s.cfg.palette s.dither (unpackRgb rgb) }.respond .ok
        (some (colorCode (ditherColor s.cfg.palette s.dither (unpackRgb rgb)))) none none) :=
  (whenReady_of_position s (position_isSome_of_mayRun hm)).trans (if_pos hv)

/-- A DITHER_NEXT that may run without an engine is refused. -/
theorem exec_ditherNext_noEngine (rgb : Rgb24) (hm : MayRun .ditherNext s)
    (hv : s.dither.valid = false) : exec (.ditherNext rgb) s = .refused .ditherNotStarted :=
  (whenReady_of_position s (position_isSome_of_mayRun hm)).trans (if_neg (by simp [hv]))

end

theorem ditherAdvance_col_last (P : Palette) {d : Dither} (raw : Rgb)
    (h : d.col.toNat + 1 = d.w.toNat) : (ditherAdvance P d raw).col.toNat = 0 :=
  congrArg BitVec.toNat (ditherAdvance_last P d raw h).1

/-- Before the last column of the row the column moves on by one, without wrapping. -/
theorem ditherAdvance_col_inner (P : Palette) {d : Dither} (raw : Rgb)
    (h : d.col.toNat + 1 < d.w.toNat) :
    (ditherAdvance P d raw).col.toNat = d.col.toNat + 1 := by
  rw [(ditherAdvance_inner P d raw h.ne).1]
  have hw := d.w.isLt
  exact BitVec.toNat_add_of_lt (by simpa using h.trans hw)

/-- Settles O14: the two outcomes of the width check; an empty error buffer reads 0 everywhere. -/
theorem ditherNewStartsAFreshEngine : Obligations.DitherNewStartsAFreshEngine := by
  refine ⟨fun _ hop => decodeHost_of_opField .ditherNew hop, fun w s hm =>
    ⟨fun hw => ?_, exec_ditherNew_badWidth hm⟩⟩
  exact ⟨_, exec_ditherNew hm (by omega), ⟨rfl, rfl, rfl⟩, rfl, rfl, rfl, rfl, readErr_nil, rfl,
    sameOutside_dither_respond ..⟩

/-- Settles O15: the model's adjusted channels are the clamped ones, and the engine moves by
`ditherAdvance`. -/
theorem ditherNextAnswersNearestAdjusted : Obligations.DitherNextAnswersNearestAdjusted := by
  intro rgb s hm hv hcol
  refine ⟨_, exec_ditherNext rgb hm hv, ⟨rfl, rfl, rfl⟩, ?_, ?_, ?_, fun hlast => ?_,
    fun hinner => ?_, rfl, sameOutside_dither_respond ..⟩
  · simp only [State.respond_color, Option.getD_some, ditherColor, adjusted_eq_clampedChannel,
      rawChannel]
  · exact (ditherAdvance_valid ..).trans hv
  · exact ditherAdvance_w ..
  · obtain ⟨hc, hp⟩ := ditherAdvance_last s.cfg.palette s.dither (unpackRgb rgb) hlast
    exact ⟨hc, (eq_flip_iff _ _).mp hp⟩
  · exact ⟨ditherAdvance_col_inner _ _ hinner, (ditherAdvance_inner _ _ _ hinner.ne).2⟩

/-- Settles O16: the cells are those of `readErr_ditherAdvance`, and the two residuals are the same. -/
theorem ditherNextDiffusesTheResidual : Obligations.DitherNextDiffusesTheResidual := by
  intro rgb s t c r k hm hv _ hwf ht
  rw [exec_ditherNext rgb hm hv, Host.Outcome.next.injEq] at ht
  subst ht
  rw [State.respond_dither, readErr_ditherAdvance _ _ _ _ _ hwf, channelResidual_eq_residualOf]

/-- Settles O17: with no engine both the meaning and acceptance refuse. -/
theorem ditherNextNeedsAnEngine : Obligations.DitherNextNeedsAnEngine :=
  ⟨fun rgb _ => exec_ditherNext_noEngine rgb, fun _ _ _ h0 hr hh ho hv =>
    step_refuses (op := .ditherNext) h0 hr hh ho (if_neg (by simp [hv]))⟩

/-! ### A stream of palette triples (41_dither rule R131) -/

section
variable {d : Dither} (hzero : ∀ c r k, readErr d.err c r k = 0)
include hzero

/-- With no error the adjusted pixel is the raw pixel. -/
theorem adjusted_of_zero (raw : Rgb) (c : Channel) : adjusted d raw c = rgbChannel raw c := by
  have hraw := rgbChannel_bounds raw c
  rw [adjusted, hzero, clamp_eq]
  omega

/-- With no error a palette triple is given its own colour. -/
theorem ditherColor_of_zero {P : Palette} (hP : paletteDistinct P = true) (p : PaletteColor) :
    ditherColor P d (paletteRgb P p) = p := by
  simp only [ditherColor, adjusted_of_zero hzero]
  rw [← nearestOfRgb_packRgb, nearest_triple hP]

/-- So it leaves no residual. -/
theorem channelResidual_of_zero {P : Palette} (hP : paletteDistinct P = true) (p : PaletteColor)
    (c : Channel) : channelResidual P d (paletteRgb P p) c = 0 := by
  rw [channelResidual, adjusted_of_zero hzero, ditherColor_of_zero hzero hP, sub_self]

/-- With no error and no residual a cell is left 0. -/
theorem diffusedCell_of_zero (c : Channel) (r : BitVec 1) (k : Nat) :
    diffusedCell d 0 c r k = 0 := by
  simp [diffusedCell, hzero]

end

/-- Settles O19: with no error the triple's own colour is chosen, so there is no residual to push. -/
theorem exactPaletteStreamKeepsZeroError : Obligations.ExactPaletteStreamKeepsZeroError := by
  intro p s hm hv _ hwf hP hzero
  refine ⟨_, exec_ditherNext _ hm hv, ⟨rfl, rfl, rfl⟩, ?_, ?_, fun c r k => ?_⟩
  · rw [unpackRgb_packRgb, ditherColor_of_zero hzero hP]
    rfl
  · exact (ditherAdvance_valid ..).trans hv
  · rw [unpackRgb_packRgb, State.respond_dither, readErr_ditherAdvance _ _ _ _ _ hwf,
      channelResidual_of_zero hzero hP, diffusedCell_of_zero hzero]

/-! ### The bounds of the cells (41_dither rule R130) -/

/-- What `DitherInv` asks of a valid engine: its position is inside its row and every cell within its
bound. -/
def EngineInv (d : Dither) : Prop :=
  (1 ≤ d.w.toNat ∧ d.w.toNat ≤ ditherWidthMax ∧ d.col.toNat < d.w.toNat) ∧
    ∀ c r k, -cellBound d r k ≤ readErr d.err c r k ∧ readErr d.err c r k ≤ cellBound d r k

theorem ditherInv_iff (s : State) : DitherInv s ↔ (s.dither.valid = true → EngineInv s.dither) :=
  Iff.rfl

section
variable (d : Dither) (e : Int) (c : Channel) {r : BitVec 1} (k : Nat)

/-- The bounds in the row of the next pixel. -/
theorem cellBound_row (hr : r = d.par) : cellBound d r k =
    if d.w.toNat ≤ k ∨ k < d.col.toNat then 0 else if k = d.col.toNat then 252 else 141 := by
  simp only [cellBound, if_pos hr]
  split_ifs <;> omega

/-- The bounds in the row below it. -/
theorem cellBound_below (hr : r ≠ d.par) : cellBound d r k =
    if d.w.toNat ≤ k ∨ d.col.toNat < k then 0
    else if k = d.col.toNat then 15 else if k + 1 = d.col.toNat then 94 else 141 := by
  simp only [cellBound, if_neg hr]
  split_ifs <;> omega

theorem cellBound_nonneg (r : BitVec 1) : 0 ≤ cellBound d r k := by
  by_cases hr : r = d.par
  · rw [cellBound_row d k hr]
    split_ifs <;> decide
  · rw [cellBound_below d k hr]
    split_ifs <;> decide

/-- What a pixel leaves in its own row. -/
theorem diffusedCell_row (hr : r = d.par) : diffusedCell d e c r k =
    if k = d.col.toNat then 0
    else if d.w.toNat ≤ k then readErr d.err c r k
    else if k = d.col.toNat + 1 then readErr d.err c r k + pushAmount 7 e
    else readErr d.err c r k := by
  simp only [diffusedCell, pushAmount, tdiv_eq, kernelDiv, hr, true_and, ne_eq, not_true, false_and,
    if_false]

/-- What a pixel leaves in the row below. -/
theorem diffusedCell_below (hr : r ≠ d.par) : diffusedCell d e c r k =
    if d.w.toNat ≤ k then readErr d.err c r k
    else if k + 1 = d.col.toNat then readErr d.err c r k + pushAmount 3 e
    else if k = d.col.toNat then readErr d.err c r k + pushAmount 5 e
    else if k = d.col.toNat + 1 then readErr d.err c r k + pushAmount 1 e
    else readErr d.err c r k := by
  simp only [diffusedCell, pushAmount, tdiv_eq, kernelDiv, hr, ne_eq, not_false_eq_true, true_and,
    false_and, if_false]

end

/-- The cells a pixel leaves are within their bounds at the next position: a column ahead in its row has
gained at most 111, the three below it at most 47, 79 and 15, and after the last column the row below
becomes the pixel's own. -/
theorem diffusedCell_within (P : Palette) {d : Dither} (raw : Rgb) {e : Int} {c : Channel}
    {r : BitVec 1} {k : Nat} (he : -255 ≤ e ∧ e ≤ 255) (hcol : d.col.toNat < d.w.toNat)
    (hold : -cellBound d r k ≤ readErr d.err c r k ∧ readErr d.err c r k ≤ cellBound d r k) :
    -cellBound (ditherAdvance P d raw) r k ≤ diffusedCell d e c r k ∧
      diffusedCell d e c r k ≤ cellBound (ditherAdvance P d raw) r k := by
  have hright : -111 ≤ pushAmount 7 e ∧ pushAmount 7 e ≤ 111 := pushAmount_bounds (by decide) he
  have hbelowLeft : -47 ≤ pushAmount 3 e ∧ pushAmount 3 e ≤ 47 := pushAmount_bounds (by decide) he
  have hbelow : -79 ≤ pushAmount 5 e ∧ pushAmount 5 e ≤ 79 := pushAmount_bounds (by decide) he
  have hbelowRight : -15 ≤ pushAmount 1 e ∧ pushAmount 1 e ≤ 15 := pushAmount_bounds (by decide) he
  by_cases hlast : d.col.toNat + 1 = d.w.toNat
  · have hc' := ditherAdvance_col_last P raw hlast
    have hflip : r = (ditherAdvance P d raw).par ↔ r ≠ d.par := by
      rw [(ditherAdvance_last P d raw hlast).2, eq_flip_iff]
    by_cases hr : r = d.par
    · rw [cellBound_row d k hr] at hold
      rw [diffusedCell_row d e c k hr, cellBound_below _ k fun h => hflip.mp h hr, hc',
        ditherAdvance_w]
      split_ifs at hold ⊢ <;> omega
    · rw [cellBound_below d k hr] at hold
      rw [diffusedCell_below d e c k hr, cellBound_row _ k (hflip.mpr hr), hc', ditherAdvance_w]
      split_ifs at hold ⊢ <;> omega
  · have hc' := ditherAdvance_col_inner P raw (by omega : d.col.toNat + 1 < d.w.toNat)
    have hp' := (ditherAdvance_inner P d raw hlast).2
    by_cases hr : r = d.par
    · rw [cellBound_row d k hr] at hold
      rw [diffusedCell_row d e c k hr, cellBound_row _ k (hr.trans hp'.symm), hc', ditherAdvance_w]
      split_ifs at hold ⊢ <;> omega
    · rw [cellBound_below d k hr] at hold
      rw [diffusedCell_below d e c k hr, cellBound_below _ k (hp' ▸ hr), hc', ditherAdvance_w]
      split_ifs at hold ⊢ <;> omega

/-- A fresh engine of a width in range is within its bounds. -/
theorem engineInv_fresh {w : Coord} (hw : 1 ≤ w.toNat ∧ w.toNat ≤ ditherWidthMax) :
    EngineInv { valid := true, w := w, col := 0, par := 0, err := [] } := by
  refine ⟨⟨hw.1, hw.2, hw.1⟩, fun c r k => ?_⟩
  rw [readErr_nil, neg_nonpos, and_self]
  exact cellBound_nonneg _ k r

/-- A pixel keeps the engine within its bounds. -/
theorem engineInv_ditherAdvance (P : Palette) {d : Dither} (raw : Rgb) (h : EngineInv d)
    (hm : sparseWf 0 d.err = true) : EngineInv (ditherAdvance P d raw) := by
  obtain ⟨⟨hpos, hmax, hcol⟩, hcells⟩ := h
  have hcol' : (ditherAdvance P d raw).col.toNat < d.w.toNat := by
    by_cases hlast : d.col.toNat + 1 = d.w.toNat
    · rwa [ditherAdvance_col_last P raw hlast]
    · have hinner : d.col.toNat + 1 < d.w.toNat := by omega
      rwa [ditherAdvance_col_inner P raw hinner]
  refine ⟨by simpa only [ditherAdvance_w] using ⟨hpos, hmax, hcol'⟩, fun c r k => ?_⟩
  rw [readErr_ditherAdvance P raw c r k hm]
  exact diffusedCell_within P raw (channelResidual_bounds P d c raw) hcol (hcells c r k)

/-- What an atomic operation does to the dither state: nothing, or it resets it (NEW), or it starts an
engine, or it advances the one there is. -/
theorem exec_atomic_dither {s t : State} {op : HostOp} {pc : Nat} (hr : s.run = .busy op pc)
    (hp : isPanelOp op = false) (h : exec (s.latched op) s = .next t) :
    t.dither = s.dither ∨ t.dither = Dither.reset ∨
    (∃ w : Coord, (1 ≤ w.toNat ∧ w.toNat ≤ ditherWidthMax) ∧
      t.dither = { valid := true, w := w, col := 0, par := 0, err := [] }) ∨
    ∃ raw, s.dither.valid = true ∧ t.dither = ditherAdvance s.cfg.palette s.dither raw := by
  rcases exec_atomic_cases hr hp h with ⟨c, v, rfl⟩ | rfl | rfl | rfl | ⟨x, y, c, -, -, rfl⟩ |
    ⟨w, hw, rfl⟩ | ⟨raw, c, hv, rfl⟩
  case inr.inr.inr.inr.inr.inl => exact .inr (.inr (.inl ⟨w, hw, rfl⟩))
  case inr.inr.inr.inr.inr.inr => exact .inr (.inr (.inr ⟨raw, hv, rfl⟩))
  all_goals simp

/-- What a step does to the dither state. -/
theorem step_dither {s t : State} (h : step s = .next t) :
    t.dither = s.dither ∨ t.dither = Dither.reset ∨
    (∃ w : Coord, (1 ≤ w.toNat ∧ w.toNat ≤ ditherWidthMax) ∧
      t.dither = { valid := true, w := w, col := 0, par := 0, err := [] }) ∨
    ∃ raw, s.dither.valid = true ∧ t.dither = ditherAdvance s.cfg.palette s.dither raw := by
  rcases step_next_cases h with ⟨-, rfl⟩ | ⟨-, -, -, rfl⟩ | ⟨w, rest, op, -, -, -, -, -, rfl⟩ |
    ⟨op, pc, a, -, -, -, -, rfl⟩ | ⟨op, pc, -, hr, hp, he⟩
  case inr.inr.inr.inr => exact exec_atomic_dither hr hp he
  all_goals simp

/-- Settles O18: a step leaves the engine, or takes it away, or starts a fresh one, or gives it one pixel,
whose residual is at most 255 in magnitude. -/
theorem ditherBoundsAreKept : Obligations.DitherBoundsAreKept := by
  rintro s t ⟨hinv, hwf⟩ h
  refine ⟨?_, memoriesStayCanonical s t hwf h⟩
  rw [ditherInv_iff] at hinv ⊢
  obtain hd | hd | ⟨w, hw, hd⟩ | ⟨raw, hv, hd⟩ := step_dither h <;> rw [hd]
  · exact hinv
  · exact fun hv => absurd hv Bool.false_ne_true
  · exact fun _ => engineInv_fresh hw
  · exact fun _ => engineInv_ditherAdvance _ raw (hinv hv) hwf.2

end Sys2Proof.Proofs
end

section
/-! PROOF. The framebuffer pixel encoder: what a pixel's write does to every byte and to every other pixel,
and the four operations on the framebuffer (O21, O22, O23, O24, O25, O26). -/

namespace Sys2Proof.Proofs

open Sys2Proof Sys2Proof.Machine

/-! ### The nibble of a column (20_memory rule R52) -/

section
variable {o : NibbleOrder} {x : Coord} (c : Code) (b : Byte)

theorem setNibble_of_high (h : inHighNibble o x = true) :
    setNibble o x c b = joinNibbles c (lo4 b) := if_pos h

theorem setNibble_of_low (h : ¬inHighNibble o x = true) :
    setNibble o x c b = joinNibbles (hi4 b) c := if_neg h

/-- A column reads the nibble written for it. -/
theorem getNibble_setNibble_same : getNibble o x (setNibble o x c b) = c := by
  by_cases h : inHighNibble o x = true
  · simp [getNibble, setNibble_of_high c b h, h]
  · simp [getNibble, setNibble_of_low c b h, h]

/-- A column with the other nibble reads what it read before. -/
theorem getNibble_setNibble_other {x' : Coord} (hne : inHighNibble o x' ≠ inHighNibble o x) :
    getNibble o x' (setNibble o x c b) = getNibble o x' b := by
  by_cases h : inHighNibble o x = true
  · simp [getNibble, setNibble_of_high c b h, show inHighNibble o x' = false by simpa [h] using hne]
  · simp [getNibble, setNibble_of_low c b h, show inHighNibble o x' = true by simpa [h] using hne]

end

/-- Both nibbles of a blank byte are WHITE (42_framebuffer rule R140). -/
theorem getNibble_blankByte (o : NibbleOrder) (x : Coord) :
    getNibble o x blankByte = colorCode .white := by
  unfold getNibble
  split
  · decide
  · decide

/-! ### One pixel written (42_framebuffer rules R142, R145) -/

section
variable {s : State} {x y : Coord} (c : Code)

/-- The byte of a written pixel is the old one with that pixel's nibble replaced. -/
theorem readByte_putPixel_same (hw : MemoryWf s) :
    readByte (s.putPixel x y c).fb (pixelAddr x y) =
      setNibble s.cfg.nibbleOrder x c (readByte s.fb (pixelAddr x y)) :=
  readByte_writeByte_same _ _ hw.1

/-- No other byte is written. -/
theorem readByte_putPixel_other {a : Nat} (ha : a ≠ pixelAddr x y) :
    readByte (s.putPixel x y c).fb a = readByte s.fb a :=
  readByte_writeByte_other _ _ ha

/-- A written pixel reads back. -/
theorem pixel_putPixel_same (hw : MemoryWf s) : (s.putPixel x y c).pixel x y = c := by
  rw [State.pixel, readByte_putPixel_same c hw]
  exact getNibble_setNibble_same c _

/-- Every other pixel reads as before: it is in another byte or, the pixel map being injective, in the
other nibble of the same byte. -/
theorem pixel_putPixel_other (hw : MemoryWf s) (hx : x.toNat < 600) (hy : y.toNat < 448)
    {x' y' : Coord} (hx' : x'.toNat < 600) (hy' : y'.toNat < 448) (hne : x' ≠ x ∨ y' ≠ y) :
    (s.putPixel x y c).pixel x' y' = s.pixel x' y' := by
  rw [State.pixel, State.pixel, State.putPixel_cfg]
  by_cases ha : pixelAddr x' y' = pixelAddr x y
  · obtain ⟨-, -, -, hinj⟩ := pixelMapIsABijection
    have hnib : inHighNibble s.cfg.nibbleOrder x' ≠ inHighNibble s.cfg.nibbleOrder x := by
      intro h
      obtain ⟨rfl, rfl⟩ := hinj _ x' y' x y hx' hy' hx hy ha h
      simp at hne
    rw [ha, readByte_putPixel_same c hw, getNibble_setNibble_other c _ hnib]
  · rw [readByte_putPixel_other c ha]

end

/-- Writing one pixel and ending the operation leaves everything outside alone. -/
theorem sameOutside_putPixel_respond (s : State) (x y : Coord) (c : Code) :
    SameOutside s ((s.putPixel x y c).respond .ok none none none) := by
  simp [SameOutside]

/-! ### The bounds check (42_framebuffer rule R141) -/

section
variable {x y : Coord}

theorem boundsChecked_inside (hx : x.toNat < 600) (hy : y.toNat < 448) (s done : State) :
    boundsChecked x y s done = done := if_pos ((inBounds_iff x y).mpr ⟨hx, hy⟩)

theorem boundsChecked_outside (hout : 600 ≤ x.toNat ∨ 448 ≤ y.toNat) (s done : State) :
    boundsChecked x y s done = s.raisePixelOutOfBounds := by
  refine if_neg fun hb => ?_
  rw [inBounds_iff] at hb
  omega

/-- Whatever stands behind the bounds check, out of bounds nothing but the response is written
(60_exceptions rule R247). -/
theorem boundsChecked_raises {i : Instr} {s done : State} (hout : 600 ≤ x.toNat ∨ 448 ≤ y.toNat)
    (h : exec i s = .next (boundsChecked x y s done)) :
    ∃ t, exec i s = .next t ∧ Responded t .pixelOutOfBounds ∧ t.fb = s.fb ∧
      t.dither = s.dither ∧ SameOutside s t := by
  rw [boundsChecked_outside hout] at h
  exact ⟨_, h, ⟨rfl, rfl, rfl⟩, rfl, rfl, sameOutside_respond ..⟩

end

/-! ### The operations (42_framebuffer rules R142, R143, R144, R146) -/

section
variable {s : State} (x y : Coord)

/-- A SET_PIXEL of a palette code that may run writes the code behind the bounds check. -/
theorem exec_setPixel {color : Code} (hm : MayRun .setPixel s) (hc : color.toNat ≤ 6) :
    exec (.setPixel x y color) s =
      .next (boundsChecked x y s ((s.putPixel x y color).respond .ok none none none)) :=
  (whenReady_of_position s (position_isSome_of_mayRun hm)).trans (if_neg (Nat.not_lt.mpr hc))

/-- A SET_PIXEL_RGB that may run writes the nearest colour's code behind the bounds check. -/
theorem exec_setPixelRgb (rgb : Rgb24) (hm : MayRun .setPixelRgb s) :
    exec (.setPixelRgb x y rgb) s =
      .next (boundsChecked x y s
        ((s.putPixel x y (colorCode (nearestOfRgb s.cfg.palette rgb))).respond .ok none none none)) :=
  whenReady_of_position s (position_isSome_of_mayRun hm)

/-- A GET_PIXEL that may run answers its pixel behind the bounds check. -/
theorem exec_getPixel (hm : MayRun .getPixel s) : exec (.getPixel x y) s =
    .next (boundsChecked x y s (s.respond .ok (some (s.pixel x y)) none none)) :=
  whenReady_of_position s (position_isSome_of_mayRun hm)

/-- A CLEAR that may run empties the list of bytes that are not blank. -/
theorem exec_clear (hm : MayRun .clear s) :
    exec .clear s = .next ({ s with fb := [] }.respond .ok none none none) :=
  whenReady_of_position s (position_isSome_of_mayRun hm)

variable {x y} (hx : x.toNat < 600) (hy : y.toNat < 448)
include hx hy

theorem exec_setPixel_inside {color : Code} (hm : MayRun .setPixel s) (hc : color.toNat ≤ 6) :
    exec (.setPixel x y color) s = .next ((s.putPixel x y color).respond .ok none none none) := by
  rw [exec_setPixel x y hm hc, boundsChecked_inside hx hy]

theorem exec_setPixelRgb_inside (rgb : Rgb24) (hm : MayRun .setPixelRgb s) :
    exec (.setPixelRgb x y rgb) s =
      .next ((s.putPixel x y (colorCode (nearestOfRgb s.cfg.palette rgb))).respond .ok none none
        none) := by
  rw [exec_setPixelRgb x y rgb hm, boundsChecked_inside hx hy]

theorem exec_getPixel_inside (hm : MayRun .getPixel s) :
    exec (.getPixel x y) s = .next (s.respond .ok (some (s.pixel x y)) none none) := by
  rw [exec_getPixel x y hm, boundsChecked_inside hx hy]

end

/-- Settles O23: each of the three operations stands behind the same bounds check. -/
theorem outOfBoundsPixelChangesNothing : Obligations.OutOfBoundsPixelChangesNothing :=
  fun x y _ hout =>
    ⟨fun _ hc hm => boundsChecked_raises hout (exec_setPixel x y hm hc),
      fun rgb hm => boundsChecked_raises hout (exec_setPixelRgb x y rgb hm),
      fun hm => boundsChecked_raises hout (exec_getPixel x y hm)⟩

/-- Settles O21: the byte written is the old one with the column's nibble replaced. -/
theorem setPixelWritesOneNibble : Obligations.SetPixelWritesOneNibble := by
  refine ⟨fun _ hop => decodeHost_of_opField .setPixel hop,
    fun x y color s => exec_setPixel_illegal x y,
    fun x y color s hm hc hout => boundsChecked_raises hout (exec_setPixel x y hm hc),
    fun x y color s hm hw hc hx hy => ⟨_, exec_setPixel_inside hx hy hm hc, ⟨rfl, rfl, rfl⟩,
      fun hhigh => ?_, fun hlow => ?_, fun a ha => readByte_putPixel_other color ha, rfl,
      sameOutside_putPixel_respond ..⟩⟩
  · rw [← inHighNibble_iff] at hhigh
    simp only [State.respond_fb, readByte_putPixel_same color hw, setNibble_of_high _ _ hhigh,
      hi4_joinNibbles, lo4_joinNibbles, and_self]
  · rw [← inHighNibble_iff] at hlow
    simp only [State.respond_fb, readByte_putPixel_same color hw, setNibble_of_low _ _ hlow,
      hi4_joinNibbles, lo4_joinNibbles, and_self]

/-- Settles O22: GET_PIXEL answers the pixel, and a write changes no pixel but its own. -/
theorem pixelReadsBack : Obligations.PixelReadsBack := by
  intro x y color s t hr hw hc hx hy ht
  rw [exec_setPixel_inside hx hy (.inl hr) hc, Host.Outcome.next.injEq] at ht
  subst ht
  refine ⟨⟨_, exec_getPixel_inside hx hy (.inl rfl), ⟨rfl, rfl, rfl⟩,
    pixel_putPixel_same color hw⟩, fun x' y' hx' hy' hne => ?_⟩
  exact ⟨_, _, exec_getPixel_inside hx' hy' (.inl rfl), exec_getPixel_inside hx' hy' (.inl hr),
    pixel_putPixel_other color hw hx hy hx' hy' hne⟩

/-- Settles O24: the code is the one NEAREST answers, a palette code, so SET_PIXEL writes it too and ends
in the same state. -/
theorem setPixelRgbIsNearestThenSetPixel : Obligations.SetPixelRgbIsNearestThenSetPixel := by
  refine ⟨fun _ hop => decodeHost_of_opField .setPixelRgb hop, fun x y rgb s hm =>
    ⟨fun hout => boundsChecked_raises hout (exec_setPixelRgb x y rgb hm), fun hx hy hw => ?_⟩⟩
  have hcode := colorCode_le (nearestOfRgb s.cfg.palette rgb)
  exact ⟨_, _, colorCode (nearestOfRgb s.cfg.palette rgb), exec_setPixelRgb_inside hx hy rgb hm,
    ⟨rfl, rfl, rfl⟩, exec_nearest rgb (.inl rfl), rfl,
    exec_setPixel_inside hx hy (.inl rfl) hcode, pixel_putPixel_same _ hw,
    fun a ha => readByte_putPixel_other _ ha, rfl, sameOutside_putPixel_respond ..⟩

/-- Settles O25: the answer is the pixel, read from its byte, and only the response is written. -/
theorem getPixelAnswersTheNibble : Obligations.GetPixelAnswersTheNibble := by
  refine ⟨fun _ hop => decodeHost_of_opField .getPixel hop,
    fun x y s hm hout => boundsChecked_raises hout (exec_getPixel x y hm),
    fun x y s hm hx hy => ⟨_, exec_getPixel_inside hx hy hm, ⟨rfl, rfl, rfl⟩, ?_, rfl, rfl,
      sameOutside_respond ..⟩⟩
  simp only [State.respond_color, Option.getD_some, State.pixel, getNibble, inHighNibble_iff,
    pixelAddr_eq]

/-- Settles O26: an empty list of bytes reads blank everywhere, and a blank byte holds WHITE twice. -/
theorem clearMakesEveryPixelWhite : Obligations.ClearMakesEveryPixelWhite :=
  ⟨fun _ hop => decodeHost_of_opField .clear hop, fun s hm =>
    ⟨_, exec_clear hm, ⟨rfl, rfl, rfl⟩, readByte_nil,
      fun x _ hx hy => ⟨_, exec_getPixel_inside hx hy (.inl rfl),
        getNibble_blankByte s.cfg.nibbleOrder x⟩,
      rfl, sameOutside_respond { s with fb := [] } ..⟩⟩

end Sys2Proof.Proofs
end

section
/-! SUPPORT. One step of a step list, by the answer of the environment: what completes, what aborts, and what
a sample of the busy line does (43_protocol_primitives rules R160 to R166; 60_exceptions rule R246). -/

namespace Sys2Proof.Machine

/-! ### Completion and abortion -/

section
variable {s u : State} (hf : ActionFrame s u)
include hf

/-- A step completes from any state that its action left with the session, the response and the
configuration as they were. -/
theorem completed_advance (op : HostOp) (pc : Nat) {n : Nat} (hn : u.polls = n) :
    Completed s (u.advance op pc) op pc n := by
  obtain ⟨-, -, hsess, -, hresp, -, hcfg, -, -⟩ := hf
  refine ⟨fun hl => ?_, fun hl => ?_⟩
  · simp [Responded, u.advance_last op pc (hcfg ▸ hl), sessAfter, hcfg, hl, hn]
  · simp [u.advance_inner op pc (hcfg ▸ hl), sessAfter, hcfg, hsess, hresp, hl, hn]

/-- Fault entry aborts the operation, whatever its kind, where the action left the pin shadows. -/
theorem aborted_raiseFault (k : Status) (i : Option Payload) (hr : u.rstOut = s.rstOut)
    (hd : u.dcOut = s.dcOut) : Aborted s (u.raiseFault k i) k := by
  obtain ⟨hlat, hfb, -, -, -, hdit, hcfg, hhost, hrst⟩ := hf
  simp [Aborted, Responded, SameMemories, hr, hd, hlat, hfb, hdit, hcfg, hhost, hrst]

end

theorem run_of_stepAt {s : State} {op : HostOp} {pc : Nat} {a : Action} (h : StepAt s op pc a) :
    s.run = .busy op pc := h.2.1

/-- The meaning of a panel operation in progress is the action at its position. -/
theorem exec_stepAt {s : State} {op : HostOp} {pc : Nat} {a : Action} (h : StepAt s op pc a) :
    exec (s.latched op) s = .next (s.perform op pc a) := by
  obtain ⟨hp, hr, ha⟩ := h
  rw [exec_latched_panel hp, panelStep_of_action hr ha]

/-! ### A sample of the busy line -/

/-- The state after a sample of the busy line at level `l`, counted in `polls` (10_state rule R27). -/
def State.sampled (s : State) (l : Level) : State :=
  { s.takeAnswer.emit (.busyRead (.level l)) with polls := s.polls + 1 }

section
variable (s : State) (l : Level)

@[simp] theorem State.sampled_sess : (s.sampled l).sess = s.sess := s.takeAnswer_sess
@[simp] theorem State.sampled_rstOut : (s.sampled l).rstOut = s.rstOut := s.takeAnswer_rstOut
@[simp] theorem State.sampled_dcOut : (s.sampled l).dcOut = s.dcOut := s.takeAnswer_dcOut
@[simp] theorem State.sampled_run : (s.sampled l).run = s.run := s.takeAnswer_run
@[simp] theorem State.sampled_polls : (s.sampled l).polls = s.polls + 1 := rfl
@[simp] theorem State.sampled_resp : (s.sampled l).resp = s.resp := s.takeAnswer_resp
@[simp] theorem State.sampled_cfg : (s.sampled l).cfg = s.cfg := s.takeAnswer_cfg
@[simp] theorem State.sampled_answers : (s.sampled l).answers = s.takeAnswer.answers := rfl
@[simp] theorem State.sampled_hwReset : (s.sampled l).hwReset = s.hwReset := s.takeAnswer_hwReset
@[simp] theorem State.sampled_trace :
    (s.sampled l).trace = s.trace ++ [.busyRead (.level l)] := by simp [State.sampled]

theorem actionFrame_sampled : ActionFrame s (s.sampled l) := by simp [ActionFrame, State.sampled]

end

/-- The two levels are each other's opposites (43_protocol_primitives rule R164). -/
theorem eq_oppositeLevel_iff (l l' : Level) : l = oppositeLevel l' ↔ l ≠ l' := by
  cases l <;> cases l' <;> decide

/-- A wait for idle awaits the idle level, and a wait for busy the other one. -/
theorem eq_awaitedLevel_iff (c : Config) (target : WaitTarget) (l : Level) :
    l = awaitedLevel c target ↔ (target = .idle ↔ l = c.busyIdle) := by
  cases target with
  | idle => simp [awaitedLevel]
  | busy => simp [awaitedLevel, eq_oppositeLevel_iff]

theorem pollLimitReached_iff (c : Config) (k : Nat) :
    pollLimitReached c k = true ↔ ∃ n, c.pollLimit = some n ∧ n ≤ k := by
  unfold pollLimitReached
  cases c.pollLimit <;> simp

section
variable {s : State} {op : HostOp} {pc : Nat} {target : WaitTarget} {l : Level}
  (hn : s.nextAnswer = .success l)
include hn

/-- At the awaited level the wait is over. -/
theorem perform_wait_awaited (hl : l = awaitedLevel s.cfg target) :
    s.perform op pc (.waitBusy target) = (s.sampled l).advance op pc := by
  simp [State.perform, State.doWaitSample, State.sampled, hn, hl]

/-- At the other level, with the limit reached, the wait times out. -/
theorem perform_wait_timeout (hl : l ≠ awaitedLevel s.cfg target)
    (hp : pollLimitReached s.cfg (s.polls + 1) = true) :
    s.perform op pc (.waitBusy target) = (s.sampled l).raiseFault .panelTimeout none := by
  simp [State.perform, State.doWaitSample, State.sampled, hn, hl, hp]

/-- At the other level, with the limit not reached, the sample is all that happens. -/
theorem perform_wait_stays (hr : s.run = .busy op pc) (hl : l ≠ awaitedLevel s.cfg target)
    (hp : ¬pollLimitReached s.cfg (s.polls + 1) = true) :
    s.perform op pc (.waitBusy target) = s.sampled l := by
  have hrun : s.takeAnswer.run = .busy op pc := s.takeAnswer_run.trans hr
  simp [State.perform, State.doWaitSample, State.sampled, State.emit, hn, hl, hp, ← hrun]

end

/-! ### An action answered with success -/

section
variable {s : State} {b : Level} (op : HostOp) (pc : Nat) (hn : s.nextAnswer = .success b)
include hn

theorem perform_rstSet_success (l : Level) : s.perform op pc (.rstSet l) =
    { s.takeAnswer.emit (.rstSet l .ok) with rstOut := some l }.advance op pc := by
  simp [State.perform, State.doRstSet, hn]

theorem perform_dcSet_success (l : Level) : s.perform op pc (.dcSet l) =
    { s.takeAnswer.emit (.dcSet l .ok) with dcOut := some l }.advance op pc := by
  simp [State.perform, State.doDcSet, hn]

theorem perform_wireWrite_success (src : WireSource) : s.perform op pc (.wireWrite src) =
    (s.takeAnswer.emit (.wireWrite (s.sourceBytes src) .ok)).advance op pc := by
  simp [State.perform, State.doWireWrite, hn]

end

/-! ### An action answered with a fault -/

/-- The event that a step leaves when the environment answers it with a fault, `d` bytes of a write having
reached the panel; a delay cannot be answered so. -/
def faultEvent (s : State) (info : Payload) (d : Nat) : Action → Event
  | .rstSet l => .rstSet l (.fault info)
  | .dcSet l => .dcSet l (.fault info)
  | .wireWrite src => .wireWrite (s.sourceBytes src) (.fault info ((s.sourceBytes src).take d))
  | .waitBusy _ => .busyRead (.fault info)
  | .delayMs n => .delayMs n

/-- A fault is entered at once, with the kind of the capability and the payload of the answer. -/
theorem perform_fault {s : State} {a : Action} {kind : Status} {info : Payload} {d : Nat}
    (op : HostOp) (pc : Nat) (hk : faultKind a = some kind) (hn : s.nextAnswer = .fault info d) :
    s.perform op pc a =
      (s.takeAnswer.emit (faultEvent s info d a)).raiseFault kind (some info) := by
  cases a with
  | rstSet l => cases hk; simp [State.perform, State.doRstSet, faultEvent, hn]
  | dcSet l => cases hk; simp [State.perform, State.doDcSet, faultEvent, hn]
  | wireWrite src => cases hk; simp [State.perform, State.doWireWrite, faultEvent, hn]
  | waitBusy target => cases hk; simp [State.perform, State.doWaitSample, faultEvent, hn]
  | delayMs n => cases hk

/-- A fault aborts the operation, its payload in the response and `polls` as it was (60_exceptions rule
R246). -/
theorem perform_fault_aborts {s : State} {a : Action} {kind : Status} {info : Payload} {d : Nat}
    (op : HostOp) (pc : Nat) (hk : faultKind a = some kind) (hn : s.nextAnswer = .fault info d) :
    (s.perform op pc a).trace = s.trace ++ [faultEvent s info d a] ∧
      Aborted s (s.perform op pc a) kind ∧ (s.perform op pc a).resp.info = info ∧
      (s.perform op pc a).polls = s.polls := by
  rw [perform_fault op pc hk hn]
  exact ⟨by simp, aborted_raiseFault (by simp [ActionFrame]) _ _ (by simp) (by simp), rfl, by simp⟩

/-- Every action but a delay uses one answer of the environment (43_protocol_primitives rule R170). -/
theorem perform_answers {a : Action} {kind : Status} (s : State) (op : HostOp) (pc : Nat)
    (hk : faultKind a = some kind) : (s.perform op pc a).answers = s.takeAnswer.answers := by
  cases hn : s.nextAnswer with
  | fault info d => simp [perform_fault op pc hk hn]
  | success b =>
    cases a with
    | rstSet l => simp [perform_rstSet_success op pc hn]
    | dcSet l => simp [perform_dcSet_success op pc hn]
    | wireWrite src => simp [perform_wireWrite_success op pc hn]
    | waitBusy target =>
      simp only [State.perform, State.doWaitSample, hn]
      split_ifs <;> simp
    | delayMs n => cases hk

end Sys2Proof.Machine
end

section
/-! PROOF. The five capability actions and the wait step (O42 to O46, O48). -/

namespace Sys2Proof.Proofs

open Sys2Proof Sys2Proof.Machine

/-- Settles O42, from the reset pin's two answers. -/
theorem rstSetStep : Obligations.RstSetStep := by
  intro s op pc l h
  refine ⟨_, exec_stepAt h, perform_answers s op pc rfl, fun b hn => ?_, fun info d hn => ?_⟩
  · have hsame := perform_sameMemories s op pc (.rstSet l)
    rw [perform_rstSet_success op pc hn] at hsame ⊢
    exact ⟨by simp, by simp, by simp, completed_advance (by simp [ActionFrame]) op pc (by simp),
      hsame⟩
  · obtain ⟨htr, hab, hinfo, -⟩ := perform_fault_aborts op pc (a := .rstSet l) rfl hn
    exact ⟨htr, hab, hinfo⟩

/-- Settles O43, from the select pin's two answers; the level the line has is never looked at. -/
theorem dcSetStep : Obligations.DcSetStep := by
  intro s op pc l h
  refine ⟨_, exec_stepAt h, perform_answers s op pc rfl, fun b hn => ?_, fun info d hn => ?_⟩
  · have hsame := perform_sameMemories s op pc (.dcSet l)
    rw [perform_dcSet_success op pc hn] at hsame ⊢
    exact ⟨by simp, by simp, by simp, completed_advance (by simp [ActionFrame]) op pc (by simp),
      hsame⟩
  · obtain ⟨htr, hab, hinfo, -⟩ := perform_fault_aborts op pc (a := .dcSet l) rfl hn
    exact ⟨htr, hab, hinfo⟩

/-- Settles O44: a failed write has delivered the first `d` of its bytes, and the others follow them. -/
theorem wireWriteStep : Obligations.WireWriteStep := by
  intro s op pc src h
  refine ⟨_, exec_stepAt h, perform_answers s op pc rfl, fun b hn => ?_, fun info d hn => ?_⟩
  · have hsame := perform_sameMemories s op pc (.wireWrite src)
    rw [perform_wireWrite_success op pc hn] at hsame ⊢
    exact ⟨by simp, by simp, by simp, completed_advance (by simp [ActionFrame]) op pc (by simp),
      hsame⟩
  · obtain ⟨htr, hab, hinfo, -⟩ := perform_fault_aborts op pc (a := .wireWrite src) rfl hn
    exact ⟨(s.sourceBytes src).take d, (s.sourceBytes src).drop d,
      (List.take_append_drop d _).symm, List.length_take, htr, hab, hinfo⟩

/-- Settles O45: the step completes from the state with the event added. -/
theorem delayStep : Obligations.DelayStep := by
  intro s op pc n h
  have hsame := perform_sameMemories s op pc (.delayMs n)
  have ht : s.perform op pc (.delayMs n) = (s.emit (.delayMs n)).advance op pc := rfl
  refine ⟨_, exec_stepAt h, ?_⟩
  rw [ht] at hsame ⊢
  exact ⟨by simp, by simp, by simp, by simp, completed_advance (by simp [ActionFrame]) op pc rfl,
    hsame⟩

section
variable {s t : State} {op : HostOp} {pc : Nat} {target : WaitTarget} {l : Level}
  (hr : s.run = .busy op pc) (hn : s.nextAnswer = .success l)
  (ht : s.perform op pc (.waitBusy target) = t)
include hr hn ht

/-- A sample leaves its event and both pin shadows, whatever it makes of the wait. -/
theorem perform_wait_sampled :
    t.trace = s.trace ++ [.busyRead (.level l)] ∧ t.rstOut = s.rstOut ∧ t.dcOut = s.dcOut := by
  by_cases hl : l = awaitedLevel s.cfg target
  · simp [← ht, perform_wait_awaited hn hl]
  · by_cases hp : pollLimitReached s.cfg (s.polls + 1) = true
    · simp [← ht, perform_wait_timeout hn hl hp]
    · simp [← ht, perform_wait_stays hn hr hl hp]

/-- A sample at the other level is counted; the wait stays where it is unless a limit is reached. -/
theorem perform_wait_other (hl : l ≠ awaitedLevel s.cfg target) : t.polls = s.polls + 1 ∧
    ((∀ n, s.cfg.pollLimit = some n → s.polls + 1 < n) →
      t.run = s.run ∧ t.sess = s.sess ∧ t.resp = s.resp) ∧
    (∀ n, s.cfg.pollLimit = some n → n ≤ s.polls + 1 → Aborted s t .panelTimeout) := by
  by_cases hp : pollLimitReached s.cfg (s.polls + 1) = true
  · obtain ⟨m, hm, hle⟩ := (pollLimitReached_iff _ _).mp hp
    rw [← ht, perform_wait_timeout hn hl hp]
    refine ⟨rfl, fun hlt => absurd (hlt m hm) (by omega), fun _ _ _ => ?_⟩
    exact aborted_raiseFault (actionFrame_sampled s l) _ _ (by simp) (by simp)
  · rw [← ht, perform_wait_stays hn hr hl hp]
    exact ⟨rfl, fun _ => by simp,
      fun n hlim hle => absurd ((pollLimitReached_iff _ _).mpr ⟨n, hlim, hle⟩) hp⟩

end

/-- Settles O46: the sample's event, then the awaited level and the other one apart. -/
theorem waitSampleStep : Obligations.WaitSampleStep := by
  intro s op pc target h
  have hr := run_of_stepAt h
  refine ⟨_, exec_stepAt h, perform_answers s op pc rfl, fun l hn => ?_,
    fun info d hn => perform_fault_aborts op pc (a := .waitBusy target) rfl hn⟩
  obtain ⟨htr, hrst, hdc⟩ := perform_wait_sampled (target := target) hr hn rfl
  refine ⟨htr, hrst, hdc, perform_sameMemories s op pc _, fun hl => ?_, fun hl => ?_⟩
  · rw [perform_wait_awaited hn ((eq_awaitedLevel_iff _ _ _).mpr hl)]
    exact completed_advance (actionFrame_sampled s l) op pc rfl
  · exact perform_wait_other hr hn rfl (mt (eq_awaitedLevel_iff _ _ _).mp hl)

/-! ### A wait whose level does not come -/

/-- A step, then the rest. -/
theorem stepTimes_succ {s t : State} (n : Nat) (h : step s = .next t) :
    stepTimes (n + 1) s = stepTimes n t := by simp only [stepTimes, h]

/-- With no limit configured, a step that samples the other level does nothing else. -/
theorem step_wait_stays {s : State} {op : HostOp} {pc : Nat} {target : WaitTarget} {l : Level}
    (h0 : s.hwReset = false) (h : StepAt s op pc (.waitBusy target)) (hlim : s.cfg.pollLimit = none)
    (hl : l ≠ awaitedLevel s.cfg target) (hn : s.nextAnswer = .success l) :
    step s = .next (s.sampled l) := by
  obtain ⟨hp, hr, ha⟩ := h
  have hnr : ¬pollLimitReached s.cfg (s.polls + 1) = true := by simp [pollLimitReached_iff, hlim]
  rw [step_panel h0 hr hp, panelStep_of_action hr ha, perform_wait_stays hn hr hl hnr]

/-- Settles O48, by induction on the number of samples: after each one the state meets the same premises
again, with one sample less to come. -/
theorem waitCanHangForEver : Obligations.WaitCanHangForEver := by
  intro n
  induction n with
  | zero =>
    intro s op pc target l _ h _ _ _
    exact ⟨s, rfl, run_of_stepAt h, rfl, rfl, rfl, by simp⟩
  | succ n ih =>
    intro s op pc target l h0 h hlim hl ha
    rw [List.replicate_succ] at ha
    have hstep := step_wait_stays h0 h hlim hl (s.nextAnswer_of_cons ha)
    obtain ⟨t, ht, hrun, hresp, hsess, hpolls, htr⟩ := ih (s.sampled l) op pc target l (by simpa)
      (by simpa [StepAt] using h) (by simpa) (by simpa) (by simp [s.takeAnswer_of_cons ha])
    refine ⟨t, (stepTimes_succ n hstep).trans ht, hrun, by simpa using hresp, by simpa using hsess,
      ?_, ?_⟩
    · rw [hpolls, State.sampled_polls]; omega
    · simp [htr, List.replicate_succ]

end Sys2Proof.Proofs
end

section
/-! PROOF. The step lists of INIT and DISPLAY against the tables of the spec, and the step a panel operation
takes at each of their positions (O41, O55). -/

namespace Sys2Proof.Proofs

open Sys2Proof Sys2Proof.Machine

/-! ### The lists action by action (44_protocol_sequences rules R183, R184, R186) -/

section
variable (c : Config)

/-- Item 3 is sent where the table has it, or left out with it. -/
theorem map_entryAction_wakeupList :
    (wakeupList c).map (entryAction c) = (specWakeup c).map some := by
  cases h : c.powerOffSeqPresent with
  | true => simp only [wakeupList, wakeCommands, specWakeup, h]; rfl
  | false => simp only [wakeupList, wakeCommands, specWakeup, h]; rfl

theorem map_entryAction_transferList :
    (transferList c).map (entryAction c) = specTransfer.map some := rfl

theorem map_entryAction_sleepList :
    (sleepList c).map (entryAction c) = specSleep.map some := rfl

theorem map_entryAction_initList :
    (initList c).map (entryAction c) = (specWakeup c ++ specSleep).map some := by
  simp only [initList, List.map_append, map_entryAction_wakeupList, map_entryAction_sleepList]

theorem map_entryAction_displayList :
    (displayList c).map (entryAction c) = (specWakeup c ++ specTransfer ++ specSleep).map some := by
  simp only [displayList, List.map_append, map_entryAction_wakeupList,
    map_entryAction_transferList, map_entryAction_sleepList]

theorem length_specWakeup :
    (specWakeup c).length = if c.powerOffSeqPresent then 46 else 42 := by
  cases h : c.powerOffSeqPresent <;> simp [specWakeup, specPair, specCommand, h]

theorem length_initList : (initList c).length = (specWakeup c).length + 8 := by
  simpa [specSleep, specPair, specCommand] using
    congrArg List.length (map_entryAction_initList c)

theorem length_displayList : (displayList c).length = (specWakeup c).length + 26 := by
  simpa [specTransfer, specSleep, specPair, specCommand] using
    congrArg List.length (map_entryAction_displayList c)

end

/-- Settles O55: each list is put together from the parts the tables give, and a list is as long as its
table. -/
theorem stepListsAreTheSpecs : Obligations.StepListsAreTheSpecs := by
  refine fun c => ⟨map_entryAction_initList c, map_entryAction_displayList c, fun h => ?_,
    fun h => ?_⟩
  · simp [length_initList, length_displayList, length_specWakeup, h]
  · simp [length_initList, length_displayList, length_specWakeup, h]

/-! ### The step at a position (46_driver rule R221) -/

/-- Where a panel operation stands at a position of its list, it takes a step, which leaves one event and
the memories as they were. -/
theorem panelStep_leaves_one_event {s : State} {op : HostOp} {pc : Nat}
    (hpos : s.position op = some pc) (hpc : pc < (stepList s.cfg op).length) :
    ∃ t e, panelStep op s = .next t ∧ t.trace = s.trace ++ [e] ∧ SameMemories s t := by
  obtain ⟨a, ha⟩ := Option.isSome_iff_exists.mp (entryAction_isSome hpc)
  obtain ⟨e, htr⟩ := perform_trace s op pc a
  exact ⟨s.perform op pc a, e, by simp [panelStep, hpos, ha], htr, perform_sameMemories s op pc a⟩

/-- A panel operation stands at its own position, or at its start while the port is idle. -/
theorem position_of_busy_or_idle {s : State} {op : HostOp} {pc : Nat}
    (h : s.run = .busy op pc ∨ s.run = .idle ∧ pc = 0) : s.position op = some pc := by
  obtain hr | ⟨hr, rfl⟩ := h
  · exact State.position_busy s hr
  · exact State.position_idle s hr

/-- Settles O41, from the step of either panel operation. -/
theorem panelOperationsStepFromEveryPosition :
    Obligations.PanelOperationsStepFromEveryPosition :=
  fun _ _ => ⟨fun hr => panelStep_leaves_one_event (position_of_busy_or_idle hr),
    fun hr => panelStep_leaves_one_event (position_of_busy_or_idle hr)⟩

end Sys2Proof.Proofs
end

section
/-! SUPPORT. A panel operation runs to the end of its list when every action succeeds and every wait sees its
level (44_protocol_sequences rules R185, R187). -/

namespace Sys2Proof.Proofs

open Sys2Proof Sys2Proof.Machine

/-! ### What executions in a row leave -/

/-- The level of the reset line after an event; a failed `RstSet` does not count (43_protocol_primitives
rule R160). -/
def rstAfter (rst : Option Level) : Event → Option Level
  | .rstSet l .ok => some l
  | .rstSet _ (.fault _) => rst
  | .dcSet _ _ => rst
  | .wireWrite _ _ => rst
  | .busyRead _ => rst
  | .delayMs _ => rst

/-- Executions of a panel operation's instruction, one for each of the events `es`, lead from `s` to `t`;
the pin shadows follow the events and the memories are as they were. -/
structure Leaves (i : Instr) (s t : State) (es : List Event) : Prop where
  runs : execTimes i es.length s = .next t
  trace : t.trace = s.trace ++ es
  rstOut : t.rstOut = es.foldl rstAfter s.rstOut
  dcOut : t.dcOut = es.foldl Event.dcAfter s.dcOut
  memories : SameMemories s t

theorem sameMemories_trans {s t u : State} (h : SameMemories s t) (h' : SameMemories t u) :
    SameMemories s u := by
  obtain ⟨hfb, hdither, hlatches, hcfg, hhost, hreset⟩ := h
  obtain ⟨hfb', hdither', hlatches', hcfg', hhost', hreset'⟩ := h'
  exact ⟨hfb'.trans hfb, hdither'.trans hdither, hlatches'.trans hlatches, hcfg'.trans hcfg,
    hhost'.trans hhost, hreset'.trans hreset⟩

theorem cfg_of_sameMemories {s t : State} (h : SameMemories s t) : t.cfg = s.cfg := h.2.2.2.1

theorem Leaves.single {i : Instr} {s t : State} {e : Event} (h : exec i s = .next t)
    (htrace : t.trace = s.trace ++ [e]) (hrst : t.rstOut = rstAfter s.rstOut e)
    (hdc : t.dcOut = e.dcAfter s.dcOut) (hmem : SameMemories s t) : Leaves i s t [e] :=
  ⟨execTimes_succ 0 h, htrace, hrst, hdc, hmem⟩

theorem Leaves.append {i : Instr} {s t u : State} {es es' : List Event} (h : Leaves i s t es)
    (h' : Leaves i t u es') : Leaves i s u (es ++ es') where
  runs := by rw [List.length_append, execTimes_add _ h.runs, h'.runs]
  trace := by rw [h'.trace, h.trace, List.append_assoc]
  rstOut := by rw [h'.rstOut, h.rstOut, List.foldl_append]
  dcOut := by rw [h'.dcOut, h.dcOut, List.foldl_append]
  memories := sameMemories_trans h.memories h'.memories

/-! ### One step with the answers that let it succeed -/

/-- The events of a wait that is over after `n` samples at the other level and one at the awaited level
(43_protocol_primitives rule R166). -/
def waitEvents (c : Config) (target : WaitTarget) (n : Nat) : List Event :=
  List.replicate n (.busyRead (.level (oppositeLevel (awaitedLevel c target)))) ++
    [.busyRead (.level (awaitedLevel c target))]

/-- Action `a`, with the memories of `s₀`, succeeds on these answers, leaving these events. -/
inductive Serves (s₀ : State) : Action → List Answer → List Event → Prop
  | rstSet (l b : Level) : Serves s₀ (.rstSet l) [.success b] [.rstSet l .ok]
  | dcSet (l b : Level) : Serves s₀ (.dcSet l) [.success b] [.dcSet l .ok]
  | wireWrite (src : WireSource) (b : Level) :
      Serves s₀ (.wireWrite src) [.success b] [.wireWrite (s₀.sourceBytes src) .ok]
  | delayMs (n : Nat) : Serves s₀ (.delayMs n) [] [.delayMs n]
  | waitBusy (target : WaitTarget) (n : Nat) :
      Serves s₀ (.waitBusy target) (waitAnswers s₀.cfg target n) (waitEvents s₀.cfg target n)

/-- The step at `pc` has been completed, leaving these events and these answers to come. -/
def StepDone (i : Instr) (s t : State) (op : HostOp) (pc : Nat) (es : List Event)
    (rest : List Answer) : Prop :=
  Leaves i s t es ∧ t.answers = rest ∧ ∃ polls, Completed s t op pc polls

theorem sourceBytes_of_sameMemories {s t : State} (h : SameMemories s t) (src : WireSource) :
    t.sourceBytes src = s.sourceBytes src := by
  cases src with
  | bytes bs => rfl
  | framebuffer => exact congrArg imageBytes h.1

theorem ne_oppositeLevel (l : Level) : oppositeLevel l ≠ l := (eq_oppositeLevel_iff _ _).mp rfl

section
variable {i : Instr} {op : HostOp} {pc : Nat} (hi : ∀ s : State, s.latched op = i)
include hi

/-- A sample of the busy line leaves its event, whatever it makes of the wait. -/
theorem leaves_sample {s : State} {target : WaitTarget} {l : Level}
    (h : StepAt s op pc (.waitBusy target)) (hn : s.nextAnswer = .success l) :
    Leaves i s (s.perform op pc (.waitBusy target)) [.busyRead (.level l)] := by
  obtain ⟨htr, hrst, hdc⟩ := perform_wait_sampled (target := target) (run_of_stepAt h) hn rfl
  exact .single (hi s ▸ exec_stepAt h) htr hrst hdc (perform_sameMemories ..)

/-- With no limit configured, a wait whose answers come to the awaited level is completed, by induction on
the samples before it. -/
theorem stepDone_wait {target : WaitTarget} {rest : List Answer} (n : Nat) : ∀ {s : State},
    StepAt s op pc (.waitBusy target) → s.cfg.pollLimit = none →
    s.answers = waitAnswers s.cfg target n ++ rest →
    ∃ t, StepDone i s t op pc (waitEvents s.cfg target n) rest := by
  induction n with
  | zero =>
    intro s h _ ha
    have hn := s.nextAnswer_of_cons ha
    have hsample := leaves_sample hi h hn
    rw [perform_wait_awaited hn rfl] at hsample
    exact ⟨_, hsample, by simp [s.takeAnswer_of_cons ha], _,
      completed_advance (actionFrame_sampled s _) op pc rfl⟩
  | succ n ih =>
    intro s h hlim ha
    have hn := s.nextAnswer_of_cons ha
    have hnr : ¬pollLimitReached s.cfg (s.polls + 1) = true := by simp [pollLimitReached_iff, hlim]
    have hsample := leaves_sample hi h hn
    rw [perform_wait_stays hn (run_of_stepAt h) (ne_oppositeLevel _) hnr] at hsample
    obtain ⟨t, hleaves, hrest, hdone⟩ := ih (s := s.sampled _) (by simpa [StepAt] using h)
      (by simpa) (by simp [s.takeAnswer_of_cons ha, waitAnswers])
    rw [State.sampled_cfg] at hleaves
    exact ⟨t, hsample.append hleaves, hrest, by simpa [Completed] using hdone⟩

/-- A step whose answers come is completed. -/
theorem stepDone_of_serves {s₀ s : State} {a : Action} {as rest : List Answer} {es : List Event}
    (hs : Serves s₀ a as es) (hmem : SameMemories s₀ s) (hlim : s₀.cfg.pollLimit = none)
    (h : StepAt s op pc a) (ha : s.answers = as ++ rest) :
    ∃ t, StepDone i s t op pc es rest := by
  cases hs with
  | rstSet l b =>
    obtain ⟨t, hexec, hans, hok, -⟩ := rstSetStep s op pc l h
    obtain ⟨htr, hrst, hdc, hdone, hsame⟩ := hok b (s.nextAnswer_of_cons ha)
    exact ⟨t, .single (hi s ▸ hexec) htr hrst hdc hsame,
      by simp [hans, s.takeAnswer_of_cons ha], _, hdone⟩
  | dcSet l b =>
    obtain ⟨t, hexec, hans, hok, -⟩ := dcSetStep s op pc l h
    obtain ⟨htr, hdc, hrst, hdone, hsame⟩ := hok b (s.nextAnswer_of_cons ha)
    exact ⟨t, .single (hi s ▸ hexec) htr hrst hdc hsame,
      by simp [hans, s.takeAnswer_of_cons ha], _, hdone⟩
  | wireWrite src b =>
    obtain ⟨t, hexec, hans, hok, -⟩ := wireWriteStep s op pc src h
    obtain ⟨htr, hrst, hdc, hdone, hsame⟩ := hok b (s.nextAnswer_of_cons ha)
    rw [sourceBytes_of_sameMemories hmem] at htr
    exact ⟨t, .single (hi s ▸ hexec) htr hrst hdc hsame,
      by simp [hans, s.takeAnswer_of_cons ha], _, hdone⟩
  | delayMs n =>
    obtain ⟨t, hexec, htr, hans, hrst, hdc, hdone, hsame⟩ := delayStep s op pc n h
    exact ⟨t, .single (hi s ▸ hexec) htr hrst hdc hsame, hans.trans ha, _, hdone⟩
  | waitBusy target n =>
    rw [← cfg_of_sameMemories hmem] at hlim ha ⊢
    exact stepDone_wait hi n h hlim ha

end

/-! ### A list of steps with the answers that let it succeed -/

/-- The actions `acts`, one after another, succeed on these answers, leaving these events. -/
inductive ServesAll (s₀ : State) : List Action → List Answer → List Event → Prop
  | nil : ServesAll s₀ [] [] []
  | cons {a : Action} {acts : List Action} {as as' : List Answer} {es es' : List Event} :
      Serves s₀ a as es → ServesAll s₀ acts as' es' →
      ServesAll s₀ (a :: acts) (as ++ as') (es ++ es')

theorem ServesAll.append {s₀ : State} {acts acts' : List Action} {as as' : List Answer}
    {es es' : List Event} (h : ServesAll s₀ acts as es) (h' : ServesAll s₀ acts' as' es') :
    ServesAll s₀ (acts ++ acts') (as ++ as') (es ++ es') := by
  induction h with
  | nil => exact h'
  | cons hs _ ih => simpa using ServesAll.cons hs ih

theorem ServesAll.wait (s₀ : State) (target : WaitTarget) (n : Nat) :
    ServesAll s₀ [.waitBusy target] (waitAnswers s₀.cfg target n)
      (waitEvents s₀.cfg target n) := by
  simpa using ServesAll.cons (Serves.waitBusy target n) ServesAll.nil

/-- The events of actions that succeed, none of which is a wait. -/
def successEvents (s₀ : State) (acts : List Action) : List Event :=
  acts.map (successEvent s₀ .low)

/-- Whether an action asks the environment for an answer (43_protocol_primitives rule R170). -/
def asks (a : Action) : Bool := (faultKind a).isSome

/-- Whether an action is a wait, which takes as many answers as it takes samples. -/
def isWait : Action → Bool
  | .waitBusy _ => true
  | .rstSet _ => false
  | .dcSet _ => false
  | .wireWrite _ => false
  | .delayMs _ => false

theorem allSuccess_cons {a : Answer} {as : List Answer} (h : allSuccess (a :: as) = true) :
    (∃ b, a = .success b) ∧ allSuccess as = true := by
  cases a with
  | success b => exact ⟨⟨b, rfl⟩, h⟩
  | fault info d => cases h

/-- Actions without a wait succeed on as many successes as they ask for answers. -/
theorem servesAll_of_allSuccess (s₀ : State) {acts : List Action} :
    ∀ {as : List Answer}, acts.any isWait = false → allSuccess as = true →
      as.length = acts.countP asks → ServesAll s₀ acts as (successEvents s₀ acts) := by
  induction acts with
  | nil =>
    intro as _ _ hlen
    obtain rfl := List.length_eq_zero_iff.mp hlen
    exact .nil
  | cons a acts ih =>
    intro as hw hs hlen
    simp only [List.any_cons, Bool.or_eq_false_iff] at hw
    obtain ⟨ha, hw⟩ := hw
    cases hask : asks a with
    | false =>
      rw [List.countP_cons_of_neg (by simp [hask])] at hlen
      have hserves : Serves s₀ a [] [successEvent s₀ .low a] := by
        cases a with
        | delayMs n => exact .delayMs n
        | _ => cases hask
      exact .cons hserves (ih hw hs hlen)
    | true =>
      rw [List.countP_cons_of_pos hask] at hlen
      obtain ⟨x, as, rfl⟩ := List.exists_cons_of_length_eq_add_one hlen
      obtain ⟨⟨b, rfl⟩, hs⟩ := allSuccess_cons hs
      have hserves : Serves s₀ a [.success b] [successEvent s₀ .low a] := by
        cases a with
        | rstSet l => exact .rstSet l b
        | dcSet l => exact .dcSet l b
        | wireWrite src => exact .wireWrite src b
        | waitBusy target => cases ha
        | delayMs n => cases hask
      exact .cons hserves (ih hw hs (by simpa using hlen))

/-- The action after `done` is the one at position `done.length`. -/
theorem action_at_position {c : Config} {op : HostOp} {done acts : List Action} {a : Action}
    (h : (stepList c op).map (entryAction c) = (done ++ a :: acts).map some) :
    ((stepList c op)[done.length]?).bind (entryAction c) = some a := by
  have hget := congrArg (·[done.length]?) h
  simp only [List.getElem?_map, List.getElem?_append_right (le_refl _), Nat.sub_self,
    List.getElem?_cons_zero, Option.map_some, Option.map_eq_some_iff] at hget
  obtain ⟨e, he, hea⟩ := hget
  rw [he, Option.bind_some, hea]

/-- An operation whose remaining actions all succeed runs to the end of its list, by induction on them. -/
theorem operation_completes {i : Instr} {op : HostOp} {s₀ : State} (hp : isPanelOp op = true)
    (hi : ∀ s : State, s.latched op = i) (hlim : s₀.cfg.pollLimit = none) {acts : List Action}
    {as : List Answer} {es : List Event} (h : ServesAll s₀ acts as es) :
    ∀ {done : List Action} {s : State}, acts ≠ [] →
      (stepList s₀.cfg op).map (entryAction s₀.cfg) = (done ++ acts).map some →
      SameMemories s₀ s → s.run = .busy op done.length → s.answers = as →
      ∃ t, Leaves i s t es ∧ Responded t .ok ∧ t.sess = .asleep ∧ t.answers = [] := by
  induction h with
  | nil => exact fun hne => absurd rfl hne
  | @cons a acts as as' es es' hs hrest ih =>
    intro done s _ hlist hmem hr ha
    have hcfg := cfg_of_sameMemories hmem
    have hlen : (stepList s.cfg op).length = done.length + (acts.length + 1) := by
      simpa [hcfg] using congrArg List.length hlist
    have hat : StepAt s op done.length a := ⟨hp, hr, hcfg ▸ action_at_position hlist⟩
    obtain ⟨t, hleaves, hans, polls, hend, hnext⟩ := stepDone_of_serves hi hs hmem hlim hat ha
    cases hrest with
    | nil =>
      obtain ⟨hresp, hsess, -⟩ := hend (by simp [hlen])
      exact ⟨t, by simpa using hleaves, hresp, hsess, hans⟩
    | cons =>
      obtain ⟨hrun, -⟩ := hnext (by simp [hlen])
      obtain ⟨u, hu, hresult⟩ := ih (done := done ++ [a]) (s := t) (by simp) (by simpa using hlist)
        (sameMemories_trans hmem hleaves.memories) (by simpa using hrun) hans
      exact ⟨u, hleaves.append hu, hresult⟩

end Sys2Proof.Proofs
end

section
/-! SUPPORT. The commands that the events of a trace send (30_encoding rule R85; 43_protocol_primitives rules
R167, R168). -/

namespace Sys2Proof.Proofs

open Sys2Proof Sys2Proof.Machine

theorem wireStream_append (dc : Option Level) (es es' : List Event) :
    wireStream dc (es ++ es') =
      wireStream dc es ++ wireStream (es.foldl Event.dcAfter dc) es' := by
  induction es generalizing dc with
  | nil => rfl
  | cons e es ih => simp [ih]

/-- The stream of commands with their data: each opcode with the line low, its data with the line high. -/
def commandStream (cmds : List (Byte × List Byte)) : List (Option Level × Byte) :=
  cmds.flatMap fun p => (some .low, p.1) :: p.2.map fun b => (some .high, b)

theorem commandStream_cons (p : Byte × List Byte) (cmds : List (Byte × List Byte)) :
    commandStream (p :: cmds) = (some .low, p.1) ::
      (p.2.map (fun b => (some Level.high, b)) ++ commandStream cmds) := rfl

theorem dataPrefix_data (d : List Byte) (cmds : List (Byte × List Byte)) :
    dataPrefix (d.map (fun b => (some Level.high, b)) ++ commandStream cmds) = d := by
  induction d with
  | nil => cases cmds <;> rfl
  | cons b d ih => simpa [dataPrefix] using ih

theorem commandsOf_data (d : List Byte) (st : List (Option Level × Byte)) :
    commandsOf (d.map (fun b => (some Level.high, b)) ++ st) = commandsOf st := by
  induction d with
  | nil => rfl
  | cons b d ih => simpa [commandsOf] using ih

/-- Cutting a stream of commands gives the commands back (30_encoding rule R85). -/
theorem commandsOf_commandStream (cmds : List (Byte × List Byte)) :
    commandsOf (commandStream cmds) = cmds := by
  induction cmds with
  | nil => rfl
  | cons p cmds ih =>
    simp [commandStream_cons, commandsOf, dataPrefix_data, commandsOf_data, ih]

/-- The events send these commands and nothing else, wherever the select line stood before. -/
def Sends (es : List Event) (cmds : List (Byte × List Byte)) : Prop :=
  ∀ dc, wireStream dc es = commandStream cmds

theorem Sends.append {es es' : List Event} {cmds cmds' : List (Byte × List Byte)}
    (h : Sends es cmds) (h' : Sends es' cmds') : Sends (es ++ es') (cmds ++ cmds') := by
  intro dc
  rw [wireStream_append, h, h', commandStream, commandStream, commandStream, List.flatMap_append]

theorem commandsOf_of_sends {es : List Event} {cmds : List (Byte × List Byte)}
    (h : Sends es cmds) (dc : Option Level) : commandsOf (wireStream dc es) = cmds := by
  rw [h, commandsOf_commandStream]

/-- A wait sends nothing. -/
theorem sends_waitEvents (c : Config) (target : WaitTarget) (n : Nat) :
    Sends (waitEvents c target n) [] := by
  intro dc
  induction n with
  | zero => rfl
  | succ n ih => exact ih

theorem successEvents_append (s : State) (acts acts' : List Action) :
    successEvents s (acts ++ acts') = successEvents s acts ++ successEvents s acts' :=
  List.map_append

/-- An opcode with nothing after it. -/
theorem sends_command (s : State) (b : Byte) :
    Sends (successEvents s (specCommand b)) [(b, [])] := fun _ => rfl

/-- An opcode with the data of one write after it (43_protocol_primitives rules R167, R168). -/
theorem sends_commandWithData (s : State) (b : Byte) (src : WireSource) :
    Sends (successEvents s (specCommand b ++ [.dcSet .high, .wireWrite src]))
      [(b, s.sourceBytes src)] := fun _ => rfl

/-- The steps of a list of (command, data) pairs. -/
def specPairs (cmds : List (Byte × List Byte)) : List Action :=
  cmds.flatMap fun p => specPair p.1 p.2

theorem specPairs_cons (p : Byte × List Byte) (cmds : List (Byte × List Byte)) :
    specPairs (p :: cmds) = specPair p.1 p.2 ++ specPairs cmds := rfl

theorem sends_specPairs (s : State) (cmds : List (Byte × List Byte)) :
    Sends (successEvents s (specPairs cmds)) cmds := by
  induction cmds with
  | nil => exact fun _ => rfl
  | cons p cmds ih =>
    rw [specPairs_cons, successEvents_append]
    exact (sends_commandWithData s p.1 (.bytes p.2)).append ih

end Sys2Proof.Proofs
end

section
/-! PROOF. INIT and DISPLAY, part by part between their waits, and what they have sent at their end (O57,
O58). -/

namespace Sys2Proof.Proofs

open Sys2Proof Sys2Proof.Machine

/-! ### The parts of the two lists (44_protocol_sequences rules R183, R184, R186) -/

/-- The actions `acts` succeed on these answers, leaving these events, and thereby send these commands. -/
structure Part (s₀ : State) (acts : List Action) (as : List Answer) (es : List Event)
    (cmds : List (Byte × List Byte)) : Prop where
  serves : ServesAll s₀ acts as es
  sends : Sends es cmds

theorem Part.append {s₀ : State} {acts acts' : List Action} {as as' : List Answer}
    {es es' : List Event} {cmds cmds' : List (Byte × List Byte)} (h : Part s₀ acts as es cmds)
    (h' : Part s₀ acts' as' es' cmds') :
    Part s₀ (acts ++ acts') (as ++ as') (es ++ es') (cmds ++ cmds') :=
  ⟨h.serves.append h'.serves, h.sends.append h'.sends⟩

theorem Part.wait (s₀ : State) (target : WaitTarget) (n : Nat) :
    Part s₀ [.waitBusy target] (waitAnswers s₀.cfg target n) (waitEvents s₀.cfg target n) [] :=
  ⟨.wait s₀ target n, sends_waitEvents _ _ _⟩

/-- A pair has four steps, none of them a wait, and each asks for an answer. -/
theorem specPairs_steps (cmds : List (Byte × List Byte)) :
    (specPairs cmds).length = 4 * cmds.length ∧ (specPairs cmds).countP asks = 4 * cmds.length ∧
      (specPairs cmds).any isWait = false := by
  induction cmds with
  | nil => exact ⟨rfl, rfl, rfl⟩
  | cons p cmds ih =>
    obtain ⟨hlen, hasks, hwait⟩ := ih
    rw [specPairs_cons, List.length_append, List.countP_append, List.any_append, hlen, hasks, hwait,
      List.length_cons, Nat.mul_add_one, Nat.add_comm]
    exact ⟨rfl, Nat.add_comm .., rfl⟩

/-- The items of `WAKE_CFG` before the settling delay, item 3 present (rule R182). -/
def wakeItems (c : Config) : List (Byte × List Byte) :=
  [(0x00, c.panelSetData), (0x01, c.powerSetData), (0x03, c.powerOffSeqData), (0x06, c.boosterData),
    (0x41, c.tempSensorData), (0x50, c.vcomData), (0x60, [0x20]), (0x61, [0x02, 0x58, 0x01, 0xC0]),
    (0xE3, [0xAA])]

/-- The wakeup's steps after its wait, W5 to W45. -/
def configActions (c : Config) : List Action :=
  specPairs (wakeItems c) ++ [.delayMs 100] ++ specPairs [(0x50, c.vcomData)]

/-- The transfer's steps before its first wait, D0 to D9. -/
def imageActions : List Action :=
  specPairs [(0x61, [0x02, 0x58, 0x01, 0xC0])] ++
    (specCommand 0x10 ++ [.dcSet .high, .wireWrite .framebuffer]) ++ specCommand 0x04

theorem specWakeup_eq {c : Config} (h : c.powerOffSeqPresent = true) :
    specWakeup c = resetPanel ++ [.waitBusy .idle] ++ configActions c := by
  simp [specWakeup, h, resetPanel, configActions, specPairs, wakeItems, resetLowMs, resetBootMs]

theorem specTransfer_eq : specTransfer =
    imageActions ++ [Action.waitBusy .busy] ++ specCommand 0x12 ++ [Action.waitBusy .busy] ++
      specCommand 0x04 ++ [Action.waitBusy .idle] ++ [Action.delayMs 200] := by
  simp [specTransfer, imageActions, specPairs]

/-- W5 to W45 have no wait; they are the delay W41 and forty steps that ask for an answer. -/
theorem configActions_steps (c : Config) : (configActions c).length = 41 ∧
    (configActions c).countP asks = 40 ∧ (configActions c).any isWait = false := by
  obtain ⟨hlen, hasks, hwait⟩ := specPairs_steps (wakeItems c)
  obtain ⟨hlen', hasks', hwait'⟩ := specPairs_steps [(0x50, c.vcomData)]
  simp only [configActions, List.length_append, List.countP_append, List.any_append, hlen, hasks,
    hwait, hlen', hasks', hwait']
  exact ⟨rfl, rfl, rfl⟩

theorem sends_configActions (s : State) : Sends (successEvents s (configActions s.cfg))
    (wakeItems s.cfg ++ [(0x50, s.cfg.vcomData)]) := by
  rw [configActions, successEvents_append, successEvents_append,
    ← List.append_nil (wakeItems s.cfg)]
  exact ((sends_specPairs s _).append fun _ => rfl).append (sends_specPairs s _)

theorem sends_imageActions (s : State) : Sends (successEvents s imageActions)
    [(0x61, [0x02, 0x58, 0x01, 0xC0]), (0x10, imageBytes s.fb), (0x04, [])] := by
  rw [imageActions, successEvents_append, successEvents_append]
  exact ((sends_specPairs s _).append (sends_commandWithData s 0x10 .framebuffer)).append
    (sends_command s 0x04)

@[simp] theorem length_successEvents (s : State) (acts : List Action) :
    (successEvents s acts).length = acts.length := List.length_map _

@[simp] theorem length_waitEvents (c : Config) (target : WaitTarget) (n : Nat) :
    (waitEvents c target n).length = n + 1 := by simp [waitEvents]

theorem allSuccess_append (as as' : List Answer) :
    allSuccess (as ++ as') = (allSuccess as && allSuccess as') := List.all_append

/-- The events of the wakeup, whose wait takes `n` other samples, and of `acts` after it. -/
def wakeupEvents (s : State) (n : Nat) (acts : List Action) : List Event :=
  successEvents s resetPanel ++ waitEvents s.cfg .idle n ++
    successEvents s (configActions s.cfg ++ acts)

/-- The wakeup, and steps without a wait after it. -/
theorem part_wakeup {s : State} (hpresent : s.cfg.powerOffSeqPresent = true) (n : Nat)
    {before after : List Answer} {acts : List Action} {cmds : List (Byte × List Byte)}
    (hbefore : allSuccess before = true) (hlb : before.length = 2)
    (hafter : allSuccess after = true) (hla : after.length = 40 + acts.countP asks)
    (hw : acts.any isWait = false) (hsends : Sends (successEvents s acts) cmds) :
    Part s (specWakeup s.cfg ++ acts) (before ++ waitAnswers s.cfg .idle n ++ after)
      (wakeupEvents s n acts) (wakeItems s.cfg ++ [(0x50, s.cfg.vcomData)] ++ cmds) := by
  obtain ⟨-, hasks, hwait⟩ := configActions_steps s.cfg
  have hreset : Part s resetPanel before (successEvents s resetPanel) [] :=
    ⟨servesAll_of_allSuccess s rfl hbefore hlb, fun _ => rfl⟩
  have hconfig : Part s (configActions s.cfg ++ acts) after
      (successEvents s (configActions s.cfg ++ acts))
      (wakeItems s.cfg ++ [(0x50, s.cfg.vcomData)] ++ cmds) := by
    refine ⟨servesAll_of_allSuccess s ?_ hafter ?_, ?_⟩
    · rw [List.any_append, hwait, hw, Bool.or_false]
    · rw [List.countP_append, hasks, hla]
    · rw [successEvents_append]
      exact (sends_configActions s).append hsends
  rw [specWakeup_eq hpresent, List.append_assoc]
  exact (hreset.append (.wait s .idle n)).append hconfig

theorem length_wakeupEvents (s : State) (n : Nat) (acts : List Action) :
    (wakeupEvents s n acts).length = 46 + n + acts.length := by
  obtain ⟨hlen, -, -⟩ := configActions_steps s.cfg
  simp only [wakeupEvents, List.length_append, length_successEvents, length_waitEvents, hlen,
    show resetPanel.length = 4 from rfl]
  omega

/-! ### The two operations (44_protocol_sequences rules R185, R187) -/

/-- What both obligations say of an operation that ran to its end from `s`. -/
def Finishes (i : Instr) (s : State) (k : Nat) (cmds : List (Byte × List Byte)) : Prop :=
  ∃ t es, execTimes i k s = .next t ∧ Responded t .ok ∧ t.sess = .asleep ∧
    t.rstOut = some .low ∧ t.dcOut = some .low ∧ t.answers = [] ∧ SameMemories s t ∧
    t.trace = s.trace ++ es ∧ es.length = k ∧ commandsOf (wireStream s.dcOut es) = cmds

/-- A panel operation whose actions all succeed, the sleep sequence last, ends with the panel asleep and
both lines low (rule R189). -/
theorem operation_finishes {i : Instr} {op : HostOp} {s : State} (hp : isPanelOp op = true)
    (hi : ∀ s : State, s.latched op = i) (hlim : s.cfg.pollLimit = none)
    (hr : s.run = .busy op 0) {acts last : List Action} {es : List Event} {k : Nat}
    {cmds : List (Byte × List Byte)}
    (h : Part s acts s.answers (es ++ successEvents s (last ++ specSleep)) cmds)
    (hlen : (es ++ successEvents s (last ++ specSleep)).length = k)
    (hlist : (stepList s.cfg op).map (entryAction s.cfg) = acts.map some) :
    Finishes i s k cmds := by
  have hne : acts ≠ [] := by
    rintro rfl
    have hpos := (wakeup_inside s.cfg hp).2
    simp [List.map_eq_nil_iff.mp hlist] at hpos
  obtain ⟨t, hleaves, hresp, hsess, hans⟩ := operation_completes hp hi hlim h.serves (done := [])
    hne hlist ⟨rfl, rfl, rfl, rfl, rfl, rfl⟩ hr rfl
  refine ⟨t, _, hlen ▸ hleaves.runs, hresp, hsess, ?_, ?_, hans, hleaves.memories, hleaves.trace,
    hlen, commandsOf_of_sends h.sends _⟩
  · rw [hleaves.rstOut, successEvents_append, List.foldl_append, List.foldl_append]; rfl
  · rw [hleaves.dcOut, successEvents_append, List.foldl_append, List.foldl_append]; rfl

/-- Settles O57: INIT's list is the wakeup and the sleep sequence, which has no wait. -/
theorem initCompletes : Obligations.InitCompletes := by
  intro s n before after hr hpresent hlim hbefore hlb hafter hla ha
  have hpart := part_wakeup hpresent n (acts := specSleep) (cmds := [(0x07, [0xA5])]) hbefore hlb
    hafter hla rfl fun _ => rfl
  rw [← ha] at hpart
  exact operation_finishes (op := .init) rfl (fun _ => rfl) hlim hr hpart
    ((length_wakeupEvents s n specSleep).trans (Nat.add_right_comm 46 n 8))
    (map_entryAction_initList s.cfg)

/-- Settles O58: the four waits cut DISPLAY's list into five parts without one. -/
theorem displayCompletes : Obligations.DisplayCompletes := by
  intro s n1 n2 n3 n4 a1 a2 a3 a4 a5 hr hpresent hlim hall h1 h2 h3 h4 h5 ha
  simp only [allSuccess_append, Bool.and_eq_true] at hall
  obtain ⟨⟨⟨⟨hs1, hs2⟩, hs3⟩, hs4⟩, hs5⟩ := hall
  have himage := part_wakeup hpresent n1 (acts := imageActions) hs1 h1 hs2 h2 rfl
    (sends_imageActions s)
  have hrefresh : Part s (specCommand 0x12) a3 (successEvents s (specCommand 0x12)) [(0x12, [])] :=
    ⟨servesAll_of_allSuccess s rfl hs3 h3, sends_command s 0x12⟩
  have hoff : Part s (specCommand 0x04) a4 (successEvents s (specCommand 0x04)) [(0x04, [])] :=
    ⟨servesAll_of_allSuccess s rfl hs4 h4, sends_command s 0x04⟩
  have hsleep : Part s ([.delayMs 200] ++ specSleep) a5
      (successEvents s ([.delayMs 200] ++ specSleep)) [(0x07, [0xA5])] :=
    ⟨servesAll_of_allSuccess s rfl hs5 h5, fun _ => rfl⟩
  have hpart := ((((((himage.append (.wait s .busy n2)).append hrefresh).append
    (.wait s .busy n3)).append hoff).append (.wait s .idle n4)).append hsleep)
  rw [← ha] at hpart
  refine operation_finishes (op := .display) rfl (fun _ => rfl) hlim hr hpart ?_ ?_
  · simp only [List.length_append, length_wakeupEvents, length_successEvents, length_waitEvents,
      List.length_singleton, show imageActions.length = 10 from rfl,
      show ∀ b, (specCommand b).length = 2 from fun _ => rfl, show specSleep.length = 8 from rfl]
    omega
  · refine (map_entryAction_displayList s.cfg).trans ?_
    simp only [specTransfer_eq, List.append_assoc]

end Sys2Proof.Proofs
end

section
/-! SUPPORT. A panel command whose actions all succeed, sent from the position where a step list begins it to the
position after it (43_protocol_primitives rules R167, R168). -/

namespace Sys2Proof.Proofs

open Sys2Proof Sys2Proof.Machine

/-! ### Executions in a row, one by one -/

theorem execTimes_succ_iff {i : Instr} {n : Nat} {s t : State} :
    execTimes i (n + 1) s = .next t ↔ ∃ u, exec i s = .next u ∧ execTimes i n u = .next t := by
  cases h : exec i s <;> simp [execTimes, h]

theorem execTimes_one_iff {i : Instr} {s t : State} :
    execTimes i 1 s = .next t ↔ exec i s = .next t := by
  rw [execTimes_succ_iff]
  simp [execTimes]

/-! ### The entries of a command -/

/-- The kinds of action that commands are sent with (43_protocol_primitives rules R167, R168). -/
def isSending : Action → Bool
  | .dcSet _ => true
  | .wireWrite _ => true
  | .rstSet _ => false
  | .waitBusy _ => false
  | .delayMs _ => false

theorem isSending_of_mem {c : Config} {p : PanelCmd} {a : Action} (h : a ∈ commandActions c p) :
    isSending a = true := by
  have hall : (commandActions c p).all isSending = true := by cases p <;> rfl
  exact List.all_eq_true.mp hall a h

/-- From where a step list begins a command, its steps stand one after another. -/
theorem command_entry {c : Config} {op : HostOp} {pc : Nat} {p : PanelCmd}
    (h : (stepList c op)[pc]? = some (.command p 0)) {k : Nat}
    (hk : k < (commandActions c p).length) :
    (stepList c op)[pc + k]? = some (.command p k) := by
  induction k with
  | zero => exact h
  | succ k ih => exact command_step_after (ih (by omega)) hk

theorem isWaitAt_command {es : List Entry} {pc k : Nat} {p : PanelCmd}
    (h : es[pc]? = some (.command p k)) : isWaitAt es pc = false := by simp [isWaitAt, h]

/-- The wakeup is followed by a command or a delay, never by a wait (44_protocol_sequences rules R185,
R187). -/
theorem isWaitAt_wakeup_end (c : Config) (op : HostOp) :
    isWaitAt (stepList c op) (wakeupList c).length = false := by
  cases op with
  | init =>
    have h : (initList c)[(wakeupList c).length]? = (sleepList c)[0]? := by
      rw [initList, List.getElem?_append_right (le_refl _), Nat.sub_self]
    simp [isWaitAt, stepList, h, sleepList]
  | display =>
    have h : (displayList c)[(wakeupList c).length]? = (transferList c ++ sleepList c)[0]? := by
      rw [displayList, List.append_assoc, List.getElem?_append_right (le_refl _), Nat.sub_self]
    have hfirst : (transferList c ++ sleepList c)[0]? = some (.command .resolutionSet 0) := rfl
    simp [isWaitAt, stepList, h, hfirst]
  | _ => rfl

/-! ### One step of a command -/

section
variable {s : State} {op : HostOp} {pc k : Nat} {p : PanelCmd} (hr : s.run = .busy op pc)
  (he : (stepList s.cfg op)[pc]? = some (.command p k))
include hr he

/-- A command that is due takes the step of the operation that sends it. -/
theorem exec_command_due : exec p.instr s = exec (s.latched op) s := by
  rw [exec_command, commandStep_eq_panelStep hr he, exec_latched_panel (isPanelOp_of_entry he)]

/-- A command's step completes when the environment answers it with success. -/
theorem command_step_done {a : Action} {b : Level} {rest : List Answer}
    (ha : (commandActions s.cfg p)[k]? = some a) (hans : s.answers = .success b :: rest) :
    ∃ t, Leaves p.instr s t (successEvents s [a]) ∧ t.answers = rest ∧
      Completed s t op pc s.polls := by
  have hat : StepAt s op pc a := ⟨isPanelOp_of_entry he, hr, by simp [he, entryAction, ha]⟩
  have hrest : s.takeAnswer.answers = rest := by rw [s.takeAnswer_of_cons hans]
  have hsending := isSending_of_mem (List.mem_of_getElem? ha)
  cases a with
  | dcSet l =>
    obtain ⟨t, hexec, htaken, hok, -⟩ := dcSetStep s op pc l hat
    obtain ⟨htr, hdc, hrst, hdone, hsame⟩ := hok b (s.nextAnswer_of_cons hans)
    exact ⟨t, .single ((exec_command_due hr he).trans hexec) htr hrst hdc hsame,
      htaken.trans hrest, hdone⟩
  | wireWrite src =>
    obtain ⟨t, hexec, htaken, hok, -⟩ := wireWriteStep s op pc src hat
    obtain ⟨htr, hrst, hdc, hdone, hsame⟩ := hok b (s.nextAnswer_of_cons hans)
    exact ⟨t, .single ((exec_command_due hr he).trans hexec) htr hrst hdc hsame,
      htaken.trans hrest, hdone⟩
  | rstSet l => cases hsending
  | waitBusy target => cases hsending
  | delayMs n => cases hsending

end

/-! ### The whole command -/

theorem successEvents_of_sameMemories {s t : State} (h : SameMemories s t) (acts : List Action) :
    successEvents t acts = successEvents s acts := by
  refine List.map_congr_left fun a _ => ?_
  cases a with
  | wireWrite src => simp only [successEvent, sourceBytes_of_sameMemories h]
  | _ => rfl

/-- The last steps `acts` of command `p`, from position `pc` on, have all succeeded, `rest` being the answers
left; `sess` and `polls` are as the position reached says (44_protocol_sequences rule R180; 10_state rule
R27). -/
structure CommandSent (p : PanelCmd) (s t : State) (op : HostOp) (pc : Nat) (acts : List Action)
    (rest : List Answer) : Prop where
  leaves : Leaves p.instr s t (successEvents s acts)
  answers : t.answers = rest
  run : t.run = .busy op (pc + acts.length)
  resp : t.resp = s.resp
  sess : t.sess = if pc + acts.length = (wakeupList s.cfg).length then .awake else s.sess
  polls : t.polls = if isWaitAt (stepList s.cfg op) (pc + acts.length) then 0 else s.polls

/-- A command whose remaining steps all succeed is sent to its end, by induction on them: the next position
is one of the command, so it is no wait and not the end of the wakeup, until the last step is done. -/
theorem command_sends {op : HostOp} {p : PanelCmd} {rest : List Answer} {acts : List Action} :
    ∀ {done : List Action} {s : State} {pc : Nat} {bs : List Level}, acts ≠ [] →
      s.run = .busy op pc → (stepList s.cfg op)[pc]? = some (.command p done.length) →
      commandActions s.cfg p = done ++ acts → bs.length = acts.length →
      s.answers = bs.map .success ++ rest → ∃ t, CommandSent p s t op pc acts rest := by
  induction acts with
  | nil => exact fun hne => absurd rfl hne
  | cons a acts ih =>
    intro done s pc bs _ hr he hacts hlen hans
    obtain ⟨b, bs, rfl⟩ := List.exists_cons_of_length_eq_add_one hlen
    obtain ⟨t, hleaves, hrest, -, hinner⟩ := command_step_done (a := a) hr he (by simp [hacts]) hans
    obtain ⟨hrun, hresp, hsess, hpolls⟩ := hinner (command_step_inside he).1.ne
    have hcfg := cfg_of_sameMemories hleaves.memories
    cases acts with
    | nil =>
      obtain rfl : bs = [] := by simpa using hlen
      exact ⟨t, hleaves, hrest, hrun, hresp, hsess, hpolls⟩
    | cons a' acts =>
      have hnext := command_step_after he (by simp [hacts])
      have hwake : pc + 1 ≠ (wakeupList s.cfg).length :=
        fun h => absurd ((command_step_inside hnext).2 h) (Nat.succ_ne_zero _)
      rw [if_neg hwake] at hsess
      rw [isWaitAt_command hnext, if_neg Bool.false_ne_true] at hpolls
      obtain ⟨u, hu⟩ := ih (done := done ++ [a]) (s := t) (bs := bs) (by simp) hrun
        (by simpa [hcfg] using hnext) (by simpa [hcfg] using hacts) (by simpa using hlen) hrest
      have hpos : pc + 1 + (a' :: acts).length = pc + (a :: a' :: acts).length := by
        simp only [List.length_cons]; omega
      refine ⟨u, ?_, hu.answers, hpos ▸ hu.run, hu.resp.trans hresp, ?_, ?_⟩
      · have happ := hleaves.append hu.leaves
        rwa [successEvents_of_sameMemories hleaves.memories, ← successEvents_append] at happ
      · rw [hu.sess, hpos, hcfg, hsess]
      · rw [hu.polls, hpos, hcfg, hpolls]

section
variable {p : PanelCmd} {opcode : Byte}

/-- A command of an opcode and one data write is sent with its data; no wait follows it. -/
theorem sendsWithData {data : State → List Byte} (src : Config → WireSource)
    (hacts : ∀ c, commandActions c p = sendCommand opcode ++ sendData (src c))
    (hdata : ∀ s : State, s.sourceBytes (src s.cfg) = data s) :
    SendsWithData p.instr p opcode data := by
  intro s op pc b1 b2 b3 b4 rest hr he hans
  obtain ⟨t, hleaves, hrest, hrun, hresp, hsess, hpolls⟩ :=
    command_sends (done := []) (bs := [b1, b2, b3, b4]) (List.cons_ne_nil _ _) hr he
      (hacts s.cfg) rfl hans
  obtain ⟨t1, h1, hruns⟩ := execTimes_succ_iff.mp hleaves.runs
  obtain ⟨t2, h2, hruns⟩ := execTimes_succ_iff.mp hruns
  obtain ⟨t3, h3, h4⟩ := execTimes_succ_iff.mp hruns
  have hnowait : isWaitAt (stepList s.cfg op) (pc + 4) = false := by
    have hlast := command_entry he (k := 3) (by simp [hacts, sendCommand, sendData])
    simpa using wait_after_command hlast
  refine ⟨t1, t2, t3, t, h1, h2, h3, execTimes_one_iff.mp h4, ?_, hrun, hleaves.dcOut,
    hleaves.rstOut, hsess, ?_, hresp, hrest, hleaves.memories⟩
  · rw [hleaves.trace, ← hdata]; rfl
  · exact hpolls.trans (if_neg (hnowait ▸ Bool.false_ne_true))

/-- A command of an opcode alone is sent, and the wait that follows it is entered with `polls = 0`; so it is
not the end of the wakeup. -/
theorem sendsWithoutData (hacts : ∀ c, commandActions c p = sendCommand opcode) :
    SendsWithoutData p.instr p opcode := by
  intro s op pc b1 b2 rest hr he hans
  obtain ⟨t, hleaves, hrest, hrun, hresp, hsess, hpolls⟩ :=
    command_sends (done := []) (bs := [b1, b2]) (List.cons_ne_nil _ _) hr he (hacts s.cfg) rfl hans
  obtain ⟨t1, h1, h2⟩ := execTimes_succ_iff.mp hleaves.runs
  have hwait : isWaitAt (stepList s.cfg op) (pc + 2) = true := by
    have hlast := command_entry he (k := 1) (by simp [hacts, sendCommand])
    simpa [hacts, sendCommand] using wait_after_command hlast
  have hwake : pc + 2 ≠ (wakeupList s.cfg).length :=
    fun h => by simp [h, isWaitAt_wakeup_end] at hwait
  exact ⟨t1, t, h1, execTimes_one_iff.mp h2, hleaves.trace, hrun, hwait, hleaves.dcOut,
    hleaves.rstOut, hsess.trans (if_neg hwake), hpolls.trans (if_pos hwait), hresp, hrest,
    hleaves.memories⟩

end

end Sys2Proof.Proofs
end

section
/-! PROOF. The thirteen panel commands as they are sent, and the opcodes and delays of the step lists (O49 to O52,
O56). -/

namespace Sys2Proof.Proofs

open Sys2Proof Sys2Proof.Machine

/-! ### The commands (45_panel_commands rules R200 to R212) -/

/-- Settles O49: each of the six is an opcode and a write of its configured data. -/
theorem configuredCommandsAreSent : Obligations.ConfiguredCommandsAreSent :=
  ⟨sendsWithData (p := .panelSet) (fun c => .bytes c.panelSetData) (fun _ => rfl) fun _ => rfl,
    sendsWithData (p := .powerSet) (fun c => .bytes c.powerSetData) (fun _ => rfl) fun _ => rfl,
    sendsWithData (p := .powerOffSeqSet) (fun c => .bytes c.powerOffSeqData) (fun _ => rfl)
      fun _ => rfl,
    sendsWithData (p := .boosterSoftstart) (fun c => .bytes c.boosterData) (fun _ => rfl)
      fun _ => rfl,
    sendsWithData (p := .tempSensorEn) (fun c => .bytes c.tempSensorData) (fun _ => rfl)
      fun _ => rfl,
    sendsWithData (p := .vcomDataInterval) (fun c => .bytes c.vcomData) (fun _ => rfl)
      fun _ => rfl⟩

/-- Settles O50: each of the four is an opcode and a write of constant bytes. -/
theorem constantCommandsAreSent : Obligations.ConstantCommandsAreSent :=
  ⟨sendsWithData (p := .deepSleep) (fun _ => .bytes [sleepMagic]) (fun _ => rfl) fun _ => rfl,
    sendsWithData (p := .vendor60) (fun _ => .bytes [vendor60Data]) (fun _ => rfl) fun _ => rfl,
    sendsWithData (p := .resolutionSet) (fun _ => .bytes resBytes) (fun _ => rfl) fun _ => rfl,
    sendsWithData (p := .vendorTuningE3) (fun _ => .bytes [tuningE3Data]) (fun _ => rfl)
      fun _ => rfl⟩

/-- Settles O51: the write's source is the framebuffer, which no step before it changes. -/
theorem dataStartSendsTheImage : Obligations.DataStartSendsTheImage :=
  sendsWithData (p := .dataStart) (fun _ => .framebuffer) (fun _ => rfl) fun _ => rfl

/-- Settles O52: each of the two is an opcode alone. -/
theorem datalessCommandsAreSent : Obligations.DatalessCommandsAreSent :=
  ⟨sendsWithoutData (p := .powerOff) fun _ => rfl,
    sendsWithoutData (p := .displayRefresh) fun _ => rfl⟩

/-! ### Opcodes and delays of a list (45_panel_commands rule R213; 70_reset_and_hazards rule R285) -/

section
variable (c : Config)

theorem sentOpcodes_append (es es' : List Entry) :
    sentOpcodes (es ++ es') = sentOpcodes es ++ sentOpcodes es' := List.filterMap_append

theorem delaySum_append (es es' : List Entry) :
    delaySum (es ++ es') = delaySum es + delaySum es' := by simp [delaySum]

theorem sentOpcodes_commandEntries (p : PanelCmd) :
    sentOpcodes (commandEntries c p) = [p.opcode] := by cases p <;> rfl

theorem delaySum_commandEntries (p : PanelCmd) : delaySum (commandEntries c p) = 0 := by
  cases p <;> rfl

/-- Commands in a row send their opcodes in a row. -/
theorem sentOpcodes_commands (ps : List PanelCmd) :
    sentOpcodes (ps.flatMap (commandEntries c)) = ps.map PanelCmd.opcode := by
  induction ps with
  | nil => rfl
  | cons p ps ih =>
    rw [List.flatMap_cons, sentOpcodes_append, sentOpcodes_commandEntries, ih]; rfl

theorem delaySum_commands (ps : List PanelCmd) :
    delaySum (ps.flatMap (commandEntries c)) = 0 := by
  induction ps with
  | nil => rfl
  | cons p ps ih => rw [List.flatMap_cons, delaySum_append, delaySum_commandEntries, ih]

theorem delaySum_wakeupList : delaySum (wakeupList c) = 301 := by
  simp only [wakeupList, delaySum_append, delaySum_commands, delaySum_commandEntries]; rfl

theorem delaySum_transferList : delaySum (transferList c) = 200 := by
  simp only [transferList, delaySum_append, delaySum_commandEntries]; rfl

theorem delaySum_sleepList : delaySum (sleepList c) = 110 := by
  simp only [sleepList, delaySum_append, delaySum_commandEntries]; rfl

theorem sentOpcodes_wakeupList :
    sentOpcodes (wakeupList c) = (wakeCommands c).map PanelCmd.opcode ++ [0x50] := by
  simp only [wakeupList, sentOpcodes_append, sentOpcodes_commands, sentOpcodes_commandEntries]
  simp [sentOpcodes, resetPanel, PanelCmd.opcode]

theorem sentOpcodes_transferList :
    sentOpcodes (transferList c) = [0x61, 0x10, 0x04, 0x12, 0x04] := by
  simp only [transferList, sentOpcodes_append, sentOpcodes_commandEntries]; rfl

theorem sentOpcodes_sleepList : sentOpcodes (sleepList c) = [0x07] := by
  simp only [sleepList, sentOpcodes_append, sentOpcodes_commandEntries]; rfl

theorem sentOpcodes_initList :
    sentOpcodes (initList c) = (wakeCommands c).map PanelCmd.opcode ++ [0x50, 0x07] := by
  simp [initList, sentOpcodes_append, sentOpcodes_wakeupList, sentOpcodes_sleepList]

theorem sentOpcodes_displayList : sentOpcodes (displayList c) =
    (wakeCommands c).map PanelCmd.opcode ++ [0x50, 0x61, 0x10, 0x04, 0x12, 0x04, 0x07] := by
  simp [displayList, sentOpcodes_append, sentOpcodes_wakeupList, sentOpcodes_transferList,
    sentOpcodes_sleepList]

end

/-- Settles O56: sums and opcodes are those of the wakeup, transfer and sleep parts, and item 3 adds its own
opcode; the lengths are O55's. -/
theorem commandCountsAndDelays : Obligations.CommandCountsAndDelays := by
  intro c
  obtain ⟨-, -, -, habsent⟩ := stepListsAreTheSpecs c
  refine ⟨?_, ?_, fun h => ?_, fun h => ?_⟩
  · rw [initList, delaySum_append, delaySum_wakeupList, delaySum_sleepList]
  · rw [displayList, delaySum_append, delaySum_append, delaySum_wakeupList, delaySum_transferList,
      delaySum_sleepList]
  · simp [sentOpcodes_initList, sentOpcodes_displayList, wakeCommands, h, PanelCmd.opcode]
  · obtain ⟨-, hinit, hdisplay⟩ := habsent h
    exact ⟨hinit, hdisplay, by simp [sentOpcodes_initList, wakeCommands, h, PanelCmd.opcode],
      by simp [sentOpcodes_displayList, wakeCommands, h, PanelCmd.opcode]⟩

end Sys2Proof.Proofs
end

section
/-! SUPPORT. The state with other words waiting at the host port, and that no operation in progress tells the
difference (46_driver rule R220). -/

namespace Sys2Proof.Machine

/-- The state with other words for the host to present. -/
def State.withHost (s : State) (words : List Hcw) : State := { s with host := words }

/-- An outcome whose next state, if it has one, has these words waiting. -/
def withHostAfter (words : List Hcw) :
    Host.Outcome State Fault Refusal → Host.Outcome State Fault Refusal
  | .next t => .next (t.withHost words)
  | .fault r => .fault r
  | .refused r => .refused r

variable (s : State) (op : HostOp) (pc : Nat) (words : List Hcw)

/-! ### One step of a step list -/

@[simp] theorem State.withHost_cfg : (s.withHost words).cfg = s.cfg := rfl
@[simp] theorem State.withHost_polls : (s.withHost words).polls = s.polls := rfl
@[simp] theorem State.withHost_nextAnswer : (s.withHost words).nextAnswer = s.nextAnswer := rfl
@[simp] theorem State.withHost_position : (s.withHost words).position op = s.position op := rfl

theorem State.takeAnswer_withHost :
    s.takeAnswer.withHost words = (s.withHost words).takeAnswer := by
  cases ha : s.answers with
  | nil => rw [s.takeAnswer_of_nil ha, (s.withHost words).takeAnswer_of_nil ha]; rfl
  | cons a rest => rw [s.takeAnswer_of_cons ha, (s.withHost words).takeAnswer_of_cons ha]; rfl

theorem State.advance_withHost :
    (s.advance op pc).withHost words = (s.withHost words).advance op pc :=
  apply_ite (State.withHost · words) _ _ _

/-- Every action does the same whatever words are waiting: the answer it gets, the state it completes from
and the fault it raises do not depend on them. -/
theorem State.perform_withHost (a : Action) :
    (s.perform op pc a).withHost words = (s.withHost words).perform op pc a := by
  cases hn : s.nextAnswer with
  | fault info d =>
    cases hk : faultKind a with
    | none =>
      cases a with
      | delayMs n => exact State.advance_withHost ..
      | _ => cases hk
    | some kind =>
      rw [perform_fault op pc hk hn, perform_fault (s := s.withHost words) op pc hk hn,
        ← State.takeAnswer_withHost]
      rfl
  | success b =>
    cases a with
    | delayMs n => exact State.advance_withHost ..
    | rstSet l =>
      rw [perform_rstSet_success op pc hn, perform_rstSet_success (s := s.withHost words) op pc hn,
        ← State.takeAnswer_withHost]
      exact State.advance_withHost ..
    | dcSet l =>
      rw [perform_dcSet_success op pc hn, perform_dcSet_success (s := s.withHost words) op pc hn,
        ← State.takeAnswer_withHost]
      exact State.advance_withHost ..
    | wireWrite src =>
      rw [perform_wireWrite_success op pc hn,
        perform_wireWrite_success (s := s.withHost words) op pc hn, ← State.takeAnswer_withHost]
      exact State.advance_withHost ..
    | waitBusy target =>
      simp only [State.perform, State.doWaitSample, State.withHost_nextAnswer, State.withHost_cfg,
        State.withHost_polls, hn, ← State.takeAnswer_withHost]
      split_ifs
      · exact State.advance_withHost ..
      · rfl
      · rfl

/-- So does the step of a panel operation. -/
theorem panelStep_withHost :
    withHostAfter words (panelStep op s) = panelStep op (s.withHost words) := by
  unfold panelStep
  rw [State.withHost_position, State.withHost_cfg]
  cases s.position op with
  | none => rfl
  | some pc =>
    cases ha : ((stepList s.cfg op)[pc]?).bind (entryAction s.cfg) with
    | none => simp only [ha]; rfl
    | some a => simp only [ha, ← State.perform_withHost]; rfl

/-! ### A host operation -/

/-- Whether an operation is ready does not depend on the words waiting. -/
theorem whenReady_withHost {s : State} {op : HostOp} {words : List Hcw}
    {o o' : Host.Outcome State Fault Refusal} (h : withHostAfter words o = o') :
    withHostAfter words (whenReady op s o) = whenReady op (s.withHost words) o' := by
  unfold whenReady
  rw [State.withHost_position]
  cases s.position op with
  | none => rfl
  | some pc => exact h

theorem boundsChecked_withHost (x y : Coord) (done : State) :
    (boundsChecked x y s done).withHost words =
      boundsChecked x y (s.withHost words) (done.withHost words) :=
  apply_ite (State.withHost · words) _ _ _

/-- The meaning of a host operation reads its operands and the block, never the words waiting. -/
theorem exec_latched_withHost :
    withHostAfter words (exec (s.latched op) s) = exec (s.latched op) (s.withHost words) := by
  cases op with
  | new | clear | nearest => exact whenReady_withHost rfl
  | setPixel =>
    refine whenReady_withHost ((apply_ite (withHostAfter words) _ _ _).trans ?_)
    exact congrArg _ (congrArg Host.Outcome.next (boundsChecked_withHost ..))
  | setPixelRgb | getPixel =>
    exact whenReady_withHost (congrArg Host.Outcome.next (boundsChecked_withHost ..))
  | init => exact panelStep_withHost s .init words
  | display => exact panelStep_withHost s .display words
  | toRgb =>
    refine whenReady_withHost ?_
    cases colorOfCode s.latches.color with
    | none => rfl
    | some p => rfl
  | ditherNew | ditherNext => exact whenReady_withHost (apply_ite (withHostAfter words) _ _ _)

end Sys2Proof.Machine
end

section
/-! PROOF. The driver: a step in the middle of an operation and at an idle port, what an operation in progress
keeps out, NEW, and what the two kinds of operation leave alone (O7, O8, O9, O10, O31, O37, O38, O39). -/

namespace Sys2Proof.Proofs

open Sys2Proof Sys2Proof.Machine

/-! ### One step of the machine (46_driver rules R220, R221) -/

/-- Settles O7: with no reset and an operation in progress, `step` is the fetch and then the meaning. -/
theorem stepRunsTheFetchedInstruction : Obligations.StepRunsTheFetchedInstruction := by
  intro s op pc i h0 hr hf
  simp [step, h0, hr, hf]

/-- Settles O8: with nothing presented, acceptance leaves the state as it is. -/
theorem idlePortWaits : Obligations.IdlePortWaits := by
  intro s h0 hr hh
  simp [step, h0, hr, acceptNext, hh]

section
variable {s t : State} {op : HostOp} {pc : Nat}

/-- A step in the middle of an operation is the meaning of that operation's own instruction, whichever
instruction is fetched. -/
theorem step_busy (h0 : s.hwReset = false) (hr : s.run = .busy op pc) :
    step s = exec (s.latched op) s := by
  cases hp : isPanelOp op with
  | true => rw [step_panel h0 hr hp, exec_latched_panel hp]
  | false => exact step_atomic h0 hr hp

/-- With other words waiting, a step in the middle of an operation leaves those and does the same. -/
theorem step_withHost (h0 : s.hwReset = false) (hr : s.run = .busy op pc) (words : List Hcw) :
    step (s.withHost words) = withHostAfter words (step s) := by
  rw [step_busy h0 hr, exec_latched_withHost]
  exact step_busy (s := s.withHost words) h0 hr

/-- Settles O9: a step commutes with replacing the words waiting, and replacing them by themselves shows
that the step left them. -/
theorem busyStepIgnoresTheHost : Obligations.BusyStepIgnoresTheHost := by
  intro s t words h0 hbusy ht
  obtain ⟨op, pc, hr⟩ : ∃ op pc, s.run = .busy op pc := by
    cases hr : s.run with
    | idle => exact absurd hr hbusy
    | busy op pc => exact ⟨op, pc, rfl⟩
  have hstep : ∀ ws, step (s.withHost ws) = .next (t.withHost ws) := fun ws => by
    rw [step_withHost h0 hr, ht]; rfl
  have hsame : t = t.withHost s.host :=
    Host.Outcome.next.inj (ht.symm.trans (hstep s.host))
  exact ⟨congrArg (·.host) hsame, hstep words⟩

/-! ### The end of an operation (46_driver rule R221; 10_state rule R28) -/

/-- What a panel operation does: nothing if it is turned away, else an action of its list. -/
theorem panelStep_next_cases (h : panelStep op s = .next t) :
    (s.position op = none ∧ t = s) ∨
      ∃ pc a, s.position op = some pc ∧ t = s.perform op pc a := by
  unfold panelStep at h
  split at h
  · cases h
    exact .inl ⟨‹_›, rfl⟩
  · split at h
    · cases h
      exact .inr ⟨_, _, ‹_›, rfl⟩
    · cases h

/-- A step of a step list that ends the operation writes the response. -/
theorem perform_valid_of_idle {a : Action} (h : (s.perform op pc a).run = .idle) :
    (s.perform op pc a).resp.valid = true := by
  obtain ⟨u, e, -, -, ⟨ht, -⟩ | ⟨k, i, ht, -⟩ | ⟨w, -, ht, -⟩⟩ := perform_cases s op pc a
  · rw [ht] at h ⊢
    by_cases hl : pc + 1 = (stepList u.cfg op).length
    · rw [u.advance_last op pc hl]; rfl
    · rw [u.advance_inner op pc hl] at h
      cases h
  · rw [ht]; rfl
  · rw [ht] at h
    cases h

/-- An atomic operation writes the response in its one step. -/
theorem exec_atomic_valid (hr : s.run = .busy op pc) (hp : isPanelOp op = false)
    (h : exec (s.latched op) s = .next t) : t.resp.valid = true := by
  rcases exec_atomic_cases hr hp h with ⟨c, v, rfl⟩ | rfl | rfl | rfl | ⟨x, y, c, -, -, rfl⟩ |
    ⟨w, -, rfl⟩ | ⟨raw, c, -, rfl⟩ <;> rfl

end

/-- Settles O37: a step of a list ends the operation, or enters the next position, or stays in a wait; an
atomic operation ends in its one step. -/
theorem operationEndsWithItsResponse : Obligations.OperationEndsWithItsResponse := by
  intro s t op pc h0 hr ht
  rw [step_busy h0 hr] at ht
  cases hp : isPanelOp op with
  | false =>
    obtain ⟨hidle, -⟩ := exec_atomic_frame hr hp ht
    exact ⟨fun _ => exec_atomic_valid hr hp ht, fun _ _ hb => by simp [hidle] at hb⟩
  | true =>
    rw [exec_latched_panel hp] at ht
    have hpos := s.position_busy hr
    obtain ⟨hnone, -⟩ | ⟨pc₁, a, hpc, rfl⟩ := panelStep_next_cases ht
    · simp [hpos] at hnone
    obtain rfl : pc = pc₁ := Option.some.inj (hpos.symm.trans hpc)
    refine ⟨perform_valid_of_idle, fun op' pc' hb => ?_⟩
    obtain ⟨hrun, -⟩ | ⟨-, hrun, hresp, -⟩ | ⟨hrun, hresp, -⟩ := perform_run_cases s op pc a
    · simp [hrun] at hb
    · obtain ⟨rfl, rfl⟩ : op = op' ∧ pc + 1 = pc' := by simpa [hrun] using hb
      exact ⟨rfl, .inr rfl, hresp, rfl⟩
    · obtain ⟨rfl, rfl⟩ : op = op' ∧ pc = pc' := by simpa [hrun] using hb
      exact ⟨rfl, .inl rfl, hresp, rfl⟩

/-! ### An operation asked for while another is in progress (46_driver rule R220) -/

section
variable {s t : State} {i : Instr} {op : HostOp}

/-- A host operation that has no position has no effect. -/
theorem exec_turned_away (hi : hostOpOf i = some op) (hpos : s.position op = none) :
    exec i s = .next s := by
  cases i with
  | init | display =>
    cases hi
    simp [exec, execInit, execDisplay, panelStep, hpos]
  | new | setPixel | setPixelRgb | getPixel | clear | nearest | toRgb | ditherNew | ditherNext =>
    cases hi
    exact whenReady_of_turned_away s hpos
  | _ => cases hi

/-- An operation may run, or it has no position. -/
theorem mayRun_or_position_eq_none (op : HostOp) (s : State) :
    MayRun op s ∨ s.position op = none := by
  cases hr : s.run with
  | idle => exact .inl (.inl hr)
  | busy op' pc =>
    by_cases h : op' = op
    · exact .inl (.inr ⟨pc, h ▸ hr⟩)
    · exact .inr (s.position_other hr h)

end

/-- Settles O10: an operation has no position while another one is in progress. -/
theorem otherOperationIsTurnedAway : Obligations.OtherOperationIsTurnedAway :=
  fun s _ _ _ _ hi hr hne => exec_turned_away hi (s.position_other hr hne)

/-! ### NEW (46_driver rule R222) -/

/-- A NEW that may run resets the block and answers. -/
theorem exec_new {s : State} (hm : MayRun .new s) :
    exec .new s = .next (s.resetBlock.respond .ok none none none) :=
  whenReady_of_position s (position_isSome_of_mayRun hm)

/-- Settles O31: the reset block lists no byte, so each is `blankByte`; the rest are the fields as
`State.resetBlock` writes or leaves them. -/
theorem newResetsTheBlock : Obligations.NewResetsTheBlock :=
  ⟨fun _ hop => decodeHost_of_opField .new hop, fun _ hm =>
    ⟨_, exec_new hm, ⟨rfl, rfl, rfl⟩, readByte_nil, rfl, rfl, rfl, rfl, rfl, rfl, rfl, rfl, rfl, rfl,
      rfl⟩⟩

/-! ### What the two kinds of operation leave alone (46_driver rule R224) -/

section
variable {s t : State} {i : Instr} {op : HostOp}

/-- Every code up to 6 is a colour's (30_encoding rule R86). -/
theorem exists_colorCode {c : Code} (hc : c.toNat ≤ 6) : ∃ p ∈ allColors, c = colorCode p := by
  revert c
  decide

theorem sameOutside_boundsChecked (x y : Coord) {done : State} (h : SameOutside s done) :
    SameOutside s (boundsChecked x y s done) := by
  unfold boundsChecked
  split
  · exact h
  · exact sameOutside_respond ..

/-- An atomic operation whose turn has come changes nothing outside its own memories, unless it is NEW. -/
theorem exec_ready_sameOutside (hi : hostOpOf i = some op) (hp : isPanelOp op = false)
    (hne : i ≠ .new) (hm : MayRun op s) (h : exec i s = .next t) : SameOutside s t := by
  cases i with
  | new => exact absurd rfl hne
  | init | display =>
    cases hi
    cases hp
  | setPixel x y color =>
    cases hi
    by_cases hc : color.toNat ≤ 6
    · rw [exec_setPixel x y hm hc] at h
      cases h
      exact sameOutside_boundsChecked x y (sameOutside_putPixel_respond ..)
    · rw [exec_setPixel_illegal x y hm (by omega)] at h
      cases h
  | setPixelRgb x y rgb =>
    cases hi
    rw [exec_setPixelRgb x y rgb hm] at h
    cases h
    exact sameOutside_boundsChecked x y (sameOutside_putPixel_respond ..)
  | getPixel x y =>
    cases hi
    rw [exec_getPixel x y hm] at h
    cases h
    exact sameOutside_boundsChecked x y (sameOutside_respond ..)
  | clear =>
    cases hi
    rw [exec_clear hm] at h
    cases h
    exact sameOutside_respond { s with fb := [] } ..
  | nearest rgb =>
    cases hi
    rw [exec_nearest rgb hm] at h
    cases h
    exact sameOutside_respond ..
  | toRgb color =>
    cases hi
    by_cases hc : color.toNat ≤ 6
    · obtain ⟨p, -, rfl⟩ := exists_colorCode hc
      rw [exec_toRgb p hm] at h
      cases h
      exact sameOutside_respond ..
    · rw [exec_toRgb_illegal hm (by omega)] at h
      cases h
  | ditherNew w =>
    cases hi
    by_cases hw : w.toNat = 0 ∨ 600 < w.toNat
    · rw [exec_ditherNew_badWidth hm hw] at h
      cases h
    · rw [exec_ditherNew hm hw] at h
      cases h
      exact sameOutside_dither_respond ..
  | ditherNext rgb =>
    cases hi
    cases hv : s.dither.valid with
    | false =>
      rw [exec_ditherNext_noEngine rgb hm hv] at h
      cases h
    | true =>
      rw [exec_ditherNext rgb hm hv] at h
      cases h
      exact sameOutside_dither_respond ..
  | _ => cases hi

/-- A step of a panel operation leaves the memories alone: it is turned away, or it is an action. -/
theorem panelStep_sameMemories (h : panelStep op s = .next t) : SameMemories s t := by
  obtain ⟨-, rfl⟩ | ⟨pc, a, -, rfl⟩ := panelStep_next_cases h
  · exact ⟨rfl, rfl, rfl, rfl, rfl, rfl⟩
  · exact perform_sameMemories ..

/-- So does a step of a panel command, which is an action of the list it is in. -/
theorem commandStep_sameMemories {c : PanelCmd} {acts : List Action}
    (h : commandStep c acts s = .next t) : SameMemories s t := by
  unfold commandStep at h
  split at h
  · cases h
  · split at h
    · cases h
      exact perform_sameMemories ..
    · cases h

end

/-- Settles O38: an operation that is turned away changes nothing, NEW resets the block without I/O, and
every other one writes inside the framebuffer and the dither state. -/
theorem onlyPanelOperationsReachThePanel : Obligations.OnlyPanelOperationsReachThePanel := by
  intro i op s t hi hp h
  obtain hm | hpos := mayRun_or_position_eq_none op s
  · by_cases hnew : i = .new
    · subst hnew
      cases hi
      rw [exec_new hm] at h
      cases h
      exact ⟨rfl, rfl, fun hne => absurd rfl hne⟩
    · obtain ⟨-, hsess, hrst, hdc, hpolls, -, -, hans, -, htr⟩ :=
        exec_ready_sameOutside hi hp hnew hm h
      exact ⟨htr, hans, fun _ => ⟨hsess, hrst, hdc, hpolls⟩⟩
  · rw [exec_turned_away hi hpos] at h
    cases h
    exact ⟨rfl, rfl, fun _ => ⟨rfl, rfl, rfl, rfl⟩⟩

/-- Settles O39: INIT, DISPLAY and the panel commands all do an action of a step list, if anything. -/
theorem panelOperationsLeaveTheMemories : Obligations.PanelOperationsLeaveTheMemories := by
  intro i s t hi h
  cases i with
  | new | setPixel | setPixelRgb | getPixel | clear | nearest | toRgb | ditherNew | ditherNext =>
    cases hi _ rfl
  | init | display => exact panelStep_sameMemories h
  | panelSet | powerSet | powerOffSeqSet | powerOff | boosterSoftstart | deepSleep | dataStart |
    displayRefresh | tempSensorEn | vcomDataInterval | vendor60 | resolutionSet |
    vendorTuningE3 => exact commandStep_sameMemories h

end Sys2Proof.Proofs
end

section
/-! PROOF. The first fault of any step (O47). -/

namespace Sys2Proof.Proofs

open Sys2Proof Sys2Proof.Machine

/-- Settles O47: the step at the position is performed, and a fault aborts it whatever its action; the
aborted operation leaves the port idle. -/
theorem firstFaultAbortsTheOperation : Obligations.FirstFaultAbortsTheOperation := by
  intro s op pc a kind info d h hk hn
  obtain ⟨htrace, habort, hinfo, hpolls⟩ := perform_fault_aborts op pc hk hn
  have ⟨⟨hidle, _⟩, _⟩ := habort
  exact ⟨_, _, exec_stepAt h, habort, hinfo, hpolls, htrace, by simp [hidle]⟩

end Sys2Proof.Proofs
end

section
/-! PROOF. The hardware reset (O32). -/

namespace Sys2Proof.Proofs

open Sys2Proof Sys2Proof.Machine

/-- An asserted reset is taken ahead of everything else (70_reset_and_hazards rule R270). -/
theorem step_of_hwReset {s : State} (h : s.hwReset = true) : step s = .next s.hardwareReset := by
  simp [step, h]

/-- Settles O32: at an idle port NEW is `State.resetBlock` and an answer, and the hardware reset is the same
`State.resetBlock` with the latches, the response and its own input reset as well. `State.resetBlock`
writes `run` itself, so what was in progress plays no part. -/
theorem hardwareResetHasTheEffectOfNew : Obligations.HardwareResetHasTheEffectOfNew := by
  intro s n hreset hnew
  rw [exec_new (.inl rfl)] at hnew
  cases hnew
  refine ⟨s.hardwareReset, step_of_hwReset hreset, ?_⟩
  simp

end Sys2Proof.Proofs
end
